-- ==== Sys2Proof/Word.lean ====
section
/-! DEFINITION. The word types of the frame parity block: a byte and the three port words (spec/00_scope.md R7,
spec/30_encoding.md R45, R50, R51). All values are unsigned (R7). -/

namespace Sys2Proof

/-- A byte: an unsigned 8-bit value, treated as atomic (R7, R34). -/
abbrev Byte := BitVec 8

/-- A command word `CW[11:0]` (R45). -/
abbrev CommandWord := BitVec 12

/-- A response word `RW[8:0]` as it stands on the response port (R50). -/
abbrev ResponseWord := BitVec 9

/-- A transmit beat `TB[8:0]` as it stands on the transmit stream (R51). -/
abbrev BeatWord := BitVec 9

end Sys2Proof
end

