-- ==== Sys2Proof/Machine/Operands.lean ====
section
/-! DEFINITION. The two fields of a command word and operand assembly (spec/30_encoding.md R45, R47). There is one operand
form, the byte `arg` as it stands: not extended, not scaled, not shifted. -/

namespace Sys2Proof.Machine

/-- `op = CW[11:8]` (R45). -/
def opField (w : CommandWord) : BitVec 4 := w.extractLsb' 8 4

/-- `arg = CW[7:0]`, the operand `b` or `d` as it stands (R45, R47). -/
def argField (w : CommandWord) : Byte := w.extractLsb' 0 8

/-- The word with the given fields, `(op << 8) | arg` (R45, R58). -/
def commandWord (op : BitVec 4) (arg : Byte) : CommandWord := (op.setWidth 12 <<< 8) ||| arg.setWidth 12

/-- The command word a number stands for, if it is one: twelve bits (R45). A larger number is no command word. -/
def commandWordOfNat (v : Nat) : Option CommandWord :=
  if v < 4096 then some (BitVec.ofNat 12 v) else none

end Sys2Proof.Machine
end

