-- ==== Sys2Proof/Syntax.lean ====
section
/-! DEFINITION. The operations of the block, one constructor per row of spec/opcode_table.json (spec/30_encoding.md
R46). An operand is a byte by its type, so no operation with an ill-sized operand exists (R47;
spec/93_implementation_defined.md U7). An operation whose `arg` is ignored carries no operand: all 256 values of
`arg` are the same operation (R47, U4). -/

namespace Sys2Proof

/-- One operation of the block (R46). -/
inductive Instr where
  /-- `0x0` `NOP` (R110) -/
  | nop
  /-- `0x1` `XCLR` (R74) -/
  | xclr
  /-- `0x2` `XABS b` (R75) -/
  | xabs (b : Byte)
  /-- `0x3` `XRD` (R76) -/
  | xrd
  /-- `0x4` `FSTART d` (R83) -/
  | fstart (d : Byte)
  /-- `0x5` `FPUSH b` (R84) -/
  | fpush (b : Byte)
  /-- `0x6` `FEND` (R85) -/
  | fend
  /-- `0x7` `CARM` (R97) -/
  | carm
  /-- `0x8` `CBYTE b` (R98) -/
  | cbyte (b : Byte)
  /-- `0x9` `CRD` (R99) -/
  | crd
  /-- `0xA` `SRD` (R111) -/
  | srd
  /-- `0xB`, reserved (R56, R112) -/
  | reservedB
  /-- `0xC`, reserved (R56, R112) -/
  | reservedC
  /-- `0xD`, reserved (R56, R112) -/
  | reservedD
  /-- `0xE`, reserved (R56, R112) -/
  | reservedE
  /-- `0xF`, reserved (R56, R112) -/
  | reservedF
  deriving DecidableEq, Repr

end Sys2Proof
end

