-- ==== Sys2Proof/Decode.lean ====
section
/-! DEFINITION. Decoding a command word, and the encoder written from the same table (spec/30_encoding.md R45 to R48,
R58). Decoding is total: every one of the 4096 words is a defined operation or a reserved one, by `op` alone (R48);
a reserved word decodes to its own constructor, which takes `OpFault` (R56). -/

namespace Sys2Proof

/-- The operation code map of R46, read by the four bits of `op`, most significant first. -/
def decodeFields (op : BitVec 4) (arg : Byte) : Instr :=
  match op.getLsbD 3, op.getLsbD 2, op.getLsbD 1, op.getLsbD 0 with
  | false, false, false, false => .nop
  | false, false, false, true => .xclr
  | false, false, true, false => .xabs arg
  | false, false, true, true => .xrd
  | false, true, false, false => .fstart arg
  | false, true, false, true => .fpush arg
  | false, true, true, false => .fend
  | false, true, true, true => .carm
  | true, false, false, false => .cbyte arg
  | true, false, false, true => .crd
  | true, false, true, false => .srd
  | true, false, true, true => .reservedB
  | true, true, false, false => .reservedC
  | true, true, false, true => .reservedD
  | true, true, true, false => .reservedE
  | true, true, true, true => .reservedF

/-- `decode(CW) = (CW[11:8], CW[7:0])` followed by the table of R46 (R48). -/
def decode (w : CommandWord) : Instr :=
  decodeFields (Machine.opField w) (Machine.argField w)

/-- The operation code of an operation (R46). -/
def Instr.opcode : Instr → BitVec 4
  | .nop => 0x0
  | .xclr => 0x1
  | .xabs _ => 0x2
  | .xrd => 0x3
  | .fstart _ => 0x4
  | .fpush _ => 0x5
  | .fend => 0x6
  | .carm => 0x7
  | .cbyte _ => 0x8
  | .crd => 0x9
  | .srd => 0xA
  | .reservedB => 0xB
  | .reservedC => 0xC
  | .reservedD => 0xD
  | .reservedE => 0xE
  | .reservedF => 0xF

/-- The `arg` the assembler writes: the operand, or `0x00` where there is none (R47, R58). -/
def Instr.argument : Instr → Byte
  | .xabs b => b
  | .fstart d => d
  | .fpush b => b
  | .cbyte b => b
  | .nop => 0x00
  | .xclr => 0x00
  | .xrd => 0x00
  | .fend => 0x00
  | .carm => 0x00
  | .crd => 0x00
  | .srd => 0x00
  | .reservedB => 0x00
  | .reservedC => 0x00
  | .reservedD => 0x00
  | .reservedE => 0x00
  | .reservedF => 0x00

/-- The encoding of an operation, `(op << 8) | arg` (R58). -/
def encode (i : Instr) : CommandWord :=
  Machine.commandWord i.opcode i.argument

/-- The operation the decoder reads from the low `nbits` bits of `w` taken as one command word; none where they are no
twelve-bit word (log 9). -/
def decodeTableWord (nbits w : Nat) : Option Instr :=
  (Machine.commandWordOfNat (w % 2 ^ nbits)).map decode

end Sys2Proof
end

