-- ==== Sys2Proof/Machine/State.lean ====
section
/-! DEFINITION. The machine's state as plain data: the six registers of spec/10_state.md R10 and the three streams of R20 to
R22, and the state right after reset (R23). There is no program counter (R17), no memory (spec/20_memory.md R30), no
mode (spec/60_exceptions.md R160) and no interrupt state (R156), so State has no field for one. -/

namespace Sys2Proof.Machine

/-- The framer's phase, register `FPH` (R12). `opened` is the spec's `OPEN`. -/
inductive Phase where
  | idle
  | opened
  deriving DecidableEq, Repr

/-- The class of a window, register `CLASS` (R14). Three values: the code `0b11` is unrepresentable
(spec/93_implementation_defined.md U2; log 6). -/
inductive ResponseClass where
  | indet
  | ack
  | nak
  deriving DecidableEq, Repr

/-- One beat of the transmit stream: a byte and its `last` marker (R20, R51). -/
structure Beat where
  byte : Byte
  last : Bool
  deriving DecidableEq, Repr

/-- One response word by its fields: the `fault` bit and the `data` byte (R21, R50). -/
structure Response where
  fault : Bool
  data : Byte
  deriving DecidableEq, Repr

/-- What the outside presents to the block, in order: a command word on the command port (R22) or an event on the reset
input, which comes between operations (spec/70_reset_and_hazards.md R170, R171). DESIGN CHOICE: one list (log 1). -/
inductive Input where
  | command (word : CommandWord)
  | reset
  deriving DecidableEq, Repr

/-- The block's two faults (spec/60_exceptions.md R150). Taking one is a next state (R153). -/
inductive BlockFault where
  /-- a reserved operation code (R152) -/
  | opFault
  /-- an operation in the wrong framer phase (R151) -/
  | seqFault
  deriving DecidableEq, Repr

/-- Reasons for which the machine stops: NONE. The block's own faults are recorded in sticky bits and the block carries
on (R153, R155), and every operation completes (R183), so nothing raises a stopping fault. Safe or unsafe does not
arise: there is no constructor (log 4). -/
inductive Fault where
  deriving DecidableEq, Repr

/-- Reasons for which an operation has no meaning. -/
inductive Refusal where
  /-- raised by an arm of exec whose operation has no meaning yet; safe. No arm raises it now. -/
  | notModelled (mnemonic : String)
  deriving DecidableEq, Repr

/-- The whole state of the block and its streams. -/
structure State where
  /-- `BCC`, the running XOR parity (R11) -/
  bcc : Byte
  /-- `FPH`, the framer's phase (R12) -/
  fph : Phase
  /-- `SEEN`, a byte has been taken in the current window (R13) -/
  seen : Bool
  /-- `CLASS`, the class of the current window (R14) -/
  cls : ResponseClass
  /-- `E_OP`, sticky (R15) -/
  eOp : Bool
  /-- `E_SEQ`, sticky (R16) -/
  eSeq : Bool
  /-- `CMD` and the reset input: what is still to come, next first (R22, R170) -/
  inputs : List Input
  /-- `RSP`, the response history, oldest first (R21) -/
  rsp : List Response
  /-- `TX`, the transmit history, oldest first (R20) -/
  tx : List Beat
  deriving DecidableEq, Repr

/-- The machine right after reset, at the start of a run (R23): every register at the spec's value, empty histories, and
nothing presented on the command port yet (log 1). -/
def State.reset : State where
  bcc := 0x00
  fph := .idle
  seen := false
  cls := .indet
  eOp := false
  eSeq := false
  inputs := []
  rsp := []
  tx := []

end Sys2Proof.Machine
end

