-- ==== Sys2Proof/Machine/Ops.lean ====
section
/-! DEFINITION. The named operations every meaning is written with: the primitives of spec/00_scope.md R8 (`TxEmit`,
`Respond`, `raise`), register writes, taking a fault (spec/60_exceptions.md R153), reset (spec/70_reset_and_hazards.md
R170) and taking the next input (spec/10_state.md R22). There is no return from a fault (R155). -/

namespace Sys2Proof.Machine

/-- `BCC <- v`. -/
def State.setBcc (v : Byte) (s : State) : State := { s with bcc := v }

/-- `FPH <- p`. -/
def State.setPhase (p : Phase) (s : State) : State := { s with fph := p }

/-- `SEEN <- b`. -/
def State.setSeen (b : Bool) (s : State) : State := { s with seen := b }

/-- `CLASS <- c`. -/
def State.setClass (c : ResponseClass) (s : State) : State := { s with cls := c }

/-- `TxEmit(b, last)`: append one beat to `TX` (R8, R20). -/
def State.txEmit (b : Byte) (last : Bool) (s : State) : State :=
  { s with tx := s.tx ++ [Beat.mk b last] }

/-- `Respond(f, d)`: append the operation's one response word to `RSP` (R8, R21). -/
def State.respond (f : Bool) (d : Byte) (s : State) : State :=
  { s with rsp := s.rsp ++ [Response.mk f d] }

/-- The cause code of a fault (R150). -/
def BlockFault.code : BlockFault → Byte
  | .opFault => 0x01
  | .seqFault => 0x02

/-- Set a fault's sticky bit (R15, R16). -/
def State.setSticky (f : BlockFault) (s : State) : State :=
  match f with
  | .opFault => { s with eOp := true }
  | .seqFault => { s with eSeq := true }

/-- `raise <Fault>(code)`, fault entry (R153): the sticky bit is set, no other register changes, no beat is appended, the
response is `Respond(1, code)`. -/
def State.raise (f : BlockFault) (s : State) : State :=
  (s.setSticky f).respond true f.code

/-- The phase check of R151, on `FPH` before the operation: in phase `p` the operation runs, else it is `SeqFault`. -/
def State.inPhase (p : Phase) (run : State → State) (s : State) : State :=
  if s.fph = p then run s else s.raise .seqFault

/-- A reset event's whole effect (R170, R171): every register to its reset value (R23), no response, no beat, the histories
as they are. -/
def State.resetEvent (s : State) : State :=
  { s with bcc := 0x00, fph := .idle, seen := false, cls := .indet, eOp := false, eSeq := false }

/-- Take the next input off the port, if there is one (R22). -/
def State.takeInput (s : State) : Option (Input × State) :=
  match s.inputs with
  | [] => none
  | i :: rest => some (i, { s with inputs := rest })

/-- With nothing presented the block waits, ready for a command, and nothing changes (spec/60_exceptions.md R163).
DESIGN CHOICE: waiting is a step that changes nothing (log 2). -/
def State.waiting (s : State) : State := s

/-- Present a word as the very next command. -/
def State.present (w : CommandWord) (s : State) : State :=
  { s with inputs := .command w :: s.inputs }

end Sys2Proof.Machine
end

