-- ==== Sys2Proof/Machine/Checksum.lean ====
section
/-! DEFINITION. XCG, the XOR checksum generator: `XCLR`, `XABS`, `XRD` (spec/40_xcg_checksum.md R74 to R76). -/

namespace Sys2Proof.Machine

/-- `XCLR`: clear the accumulator; `SeqFault` while a frame is open (R74). -/
def execXclr (s : State) : Host.Outcome State Fault Refusal :=
  .next (s.inPhase .idle fun s => (s.setBcc 0x00).respond false 0x00)

/-- `XABS b`: absorb one byte; `SeqFault` while a frame is open (R75). -/
def execXabs (b : Byte) (s : State) : Host.Outcome State Fault Refusal :=
  .next (s.inPhase .idle fun s => (s.setBcc (s.bcc ^^^ b)).respond false 0x00)

/-- `XRD`: respond `BCC`, in either phase (R76). -/
def execXrd (s : State) : Host.Outcome State Fault Refusal :=
  .next (s.respond false s.bcc)

end Sys2Proof.Machine
end

