-- ==== Sys2Proof/Machine/Flags.lean ====
section
/-! DEFINITION. The views of the state in bits: the class code (spec/30_encoding.md R62), the status register `STAT`
(spec/10_state.md R18), the response word (R50) and the transmit beat (R51). XOR sets no flag (R19, R71). -/

namespace Sys2Proof.Machine

/-- The port code of a class (R62). -/
def ResponseClass.code : ResponseClass → BitVec 2
  | .indet => 0b00
  | .ack => 0b01
  | .nak => 0b10

/-- The class a port code stands for; `0b11` stands for none (R62). -/
def ResponseClass.ofCode (c : BitVec 2) : Option ResponseClass :=
  match c.getLsbD 1, c.getLsbD 0 with
  | false, false => some .indet
  | false, true => some .ack
  | true, false => some .nak
  | true, true => none

/-- `FPH` as one bit, `OPEN` = 1 (R12); the `FOPEN` field of `STAT`. -/
def Phase.bit : Phase → BitVec 1
  | .idle => 0
  | .opened => 1

/-- `zext_8(CLASS)`, the data `CRD` responds with (R62, R99). -/
def classData (c : ResponseClass) : Byte := (0#6 ++ c.code : BitVec 8)

/-- `STAT = 0b00 || CLASS || SEEN || FOPEN || E_SEQ || E_OP`, a view of five registers (R18, R111). -/
def stat (s : State) : Byte :=
  (0#2 ++ s.cls.code ++ BitVec.ofBool s.seen ++ s.fph.bit ++ BitVec.ofBool s.eSeq ++ BitVec.ofBool s.eOp : BitVec 8)

/-- The response word `fault || data` (R50). -/
def Response.word (r : Response) : ResponseWord := (BitVec.ofBool r.fault ++ r.data : BitVec 9)

/-- The fields of a response word (R50). -/
def Response.ofWord (w : ResponseWord) : Response := Response.mk (w.getLsbD 8) (w.extractLsb' 0 8)

/-- The beat `last || byte` (R51). -/
def Beat.word (b : Beat) : BeatWord := (BitVec.ofBool b.last ++ b.byte : BitVec 9)

/-- The fields of a beat (R51). -/
def Beat.ofWord (w : BeatWord) : Beat := Beat.mk (w.extractLsb' 0 8) (w.getLsbD 8)

end Sys2Proof.Machine
end

