-- ==== Sys2Proof/Config.lean ====
section
/-! DEFINITION. What an implementation fixes: the record of the block's hardwired bytes (spec/00_scope.md R5) and the
host's parameters (R6, spec/49_host_environment.md R124). The values of the hardwired bytes stand in
Sys2Proof/Machine/Constants.lean, in one record, so that an audit correction changes one place. The spec leaves no
value of the block open, so there is no free value here. -/

namespace Sys2Proof

/-- The seven bytes the block hardwires (R5); their names are the spec's. -/
structure FrameConstants where
  /-- `SOH`, start_of_header -/
  soh : Byte
  /-- `MODE`; only its value is used, its gloss is not modelled (spec/90_conflicts.md C6) -/
  mode : Byte
  /-- `SID`, sender_id -/
  sid : Byte
  /-- `STX`, start_of_text -/
  stx : Byte
  /-- `ETX`, end_of_text -/
  etx : Byte
  /-- `ACK`, acknowledgment -/
  ack : Byte
  /-- `NAK`, negative-acknowledgment -/
  nak : Byte
  deriving DecidableEq, Repr

/-- The arguments of the host's `issue` and the `max_length` of its reads (R6, R124). `readMax` is the spec's OPEN
parameter READ_MAX (spec/92_eei_decisions.md D29): it has no default. Times are in milliseconds. They are the host's,
not registers of the block. -/
structure HostParameters where
  /-- `READ_MAX`, OPEN (D29) -/
  readMax : Nat
  /-- additional reads after the first (R124) -/
  maxRetries : Nat := 5
  /-- the wait before each additional read (R124) -/
  pollInterval : Nat := 1000
  /-- the wait between the write and the first read (R124) -/
  initialSettle : Nat := 100
  deriving DecidableEq, Repr

end Sys2Proof
end

