-- ==== Sys2Proof/Machine/Constants.lean ====
section
/-! DEFINITION. The values of the block's seven hardwired bytes, one record (spec/00_scope.md R5). UNVERIFIED: the
spec calls the literals unaudited (spec/93_implementation_defined.md U9; log 7). -/

namespace Sys2Proof.Machine

/-- The hardwired bytes, with the values of R5. -/
def constants : FrameConstants where
  soh := 0x01
  mode := 0x81
  sid := 0x20
  stx := 0x02
  etx := 0x03
  ack := 0x06
  nak := 0x15

end Sys2Proof.Machine
end

