-- ==== Sys2Proof/Machine/Functions.lean ====
section
/-! DEFINITION. The pure functions of the three units: `xor8` (spec/40_xcg_checksum.md R70), `build_frame`
(spec/41_frm_framer.md R80) and the classifier's two functions (spec/42_cls_classifier.md R95, R96). -/

namespace Sys2Proof.Machine

/-- `xor8(s)`: the XOR of all bytes of `s`, `0x00` for none (R70). -/
def xor8 (s : List Byte) : Byte := s.foldl (· ^^^ ·) 0x00

/-- The bytes `FSTART d` emits: `SOH, destination_id, MODE, SID, STX` (R53, R83). -/
def headerBytes (d : Byte) : List Byte :=
  [constants.soh, d, constants.mode, constants.sid, constants.stx]

/-- The covered bytes so far: everything emitted but `SOH` (R55). -/
def openBody (d : Byte) (p : List Byte) : List Byte :=
  [d, constants.mode, constants.sid, constants.stx] ++ p

/-- The frame body, the bytes the checksum covers (R55). -/
def frameBody (d : Byte) (p : List Byte) : List Byte := openBody d p ++ [constants.etx]

/-- The checksum of a frame (R80). -/
def checksum (d : Byte) (p : List Byte) : Byte := xor8 (frameBody d p)

/-- `build_frame(d, p)` (R80). -/
def buildFrame (d : Byte) (p : List Byte) : List Byte :=
  headerBytes d ++ p ++ [constants.etx, checksum d p]

/-- `classify(b)`: equality with the two codes, on all eight bits (R95). -/
def classify (b : Byte) : ResponseClass :=
  if b = constants.ack then .ack else if b = constants.nak then .nak else .indet

/-- `classify_read(s)`: by the first byte, `INDET` when there is none (R96). -/
def classifyRead : List Byte → ResponseClass
  | [] => .indet
  | b :: _ => classify b

/-- Bytes as beats with `last = 0`. -/
def plainBeats (bs : List Byte) : List Beat := bs.map fun b => Beat.mk b false

/-- A frame as it stands on `TX`: `last = 1` on the checksum and nowhere else (R20, R51, R53). -/
def frameBeats (d : Byte) (p : List Byte) : List Beat :=
  plainBeats (headerBytes d ++ p ++ [constants.etx]) ++ [Beat.mk (checksum d p) true]

end Sys2Proof.Machine
end

