-- ==== Sys2Proof/Machine/Classifier.lean ====
section
/-! DEFINITION. CLS, the ACK/NAK classifier: `CARM`, `CBYTE`, `CRD` (spec/42_cls_classifier.md R97 to R99). Accepted in
either framer phase (R104). -/

namespace Sys2Proof.Machine

/-- `CARM`: open a new response window (R97). -/
def execCarm (s : State) : Host.Outcome State Fault Refusal :=
  .next (((s.setSeen false).setClass .indet).respond false 0x00)

/-- Take one byte into the window: the first is classified, a later one changes nothing (R98). -/
def State.takeByte (b : Byte) (s : State) : State :=
  if s.seen = false then (s.setClass (classify b)).setSeen true else s

/-- `CBYTE b`: give the classifier the next received byte (R98). -/
def execCbyte (b : Byte) (s : State) : Host.Outcome State Fault Refusal :=
  .next ((s.takeByte b).respond false 0x00)

/-- `CRD`: respond `zext_8(CLASS)` (R99). -/
def execCrd (s : State) : Host.Outcome State Fault Refusal :=
  .next (s.respond false (classData s.cls))

end Sys2Proof.Machine
end

