-- ==== Sys2Proof/Machine/Control.lean ====
section
/-! DEFINITION. The control operations: `NOP`, `SRD` and the five reserved codes (spec/43_system.md R110 to R112). A reserved
code takes `OpFault` whatever its `arg` and the state (R56, R152). -/

namespace Sys2Proof.Machine

/-- `NOP`: respond, and nothing else (R110). -/
def execNop (s : State) : Host.Outcome State Fault Refusal :=
  .next (s.respond false 0x00)

/-- `SRD`: respond `STAT`; clears nothing (R111). -/
def execSrd (s : State) : Host.Outcome State Fault Refusal :=
  .next (s.respond false (stat s))

/-- Code `0xB`: `OpFault` (R112). -/
def execReservedB (s : State) : Host.Outcome State Fault Refusal := .next (s.raise .opFault)

/-- Code `0xC`: `OpFault` (R112). -/
def execReservedC (s : State) : Host.Outcome State Fault Refusal := .next (s.raise .opFault)

/-- Code `0xD`: `OpFault` (R112). -/
def execReservedD (s : State) : Host.Outcome State Fault Refusal := .next (s.raise .opFault)

/-- Code `0xE`: `OpFault` (R112). -/
def execReservedE (s : State) : Host.Outcome State Fault Refusal := .next (s.raise .opFault)

/-- Code `0xF`: `OpFault` (R112). -/
def execReservedF (s : State) : Host.Outcome State Fault Refusal := .next (s.raise .opFault)

end Sys2Proof.Machine
end

