-- ==== Sys2Proof/Machine/Framer.lean ====
section
/-! DEFINITION. FRM, the packet framer: `FSTART`, `FPUSH`, `FEND` (spec/41_frm_framer.md R83 to R85). -/

namespace Sys2Proof.Machine

/-- `FSTART d`: emit the header, load the accumulator (`SOH` is not absorbed), open the frame; `SeqFault` while one is open
(R83). -/
def execFstart (d : Byte) (s : State) : Host.Outcome State Fault Refusal :=
  .next (s.inPhase .idle fun s =>
    let s := s.txEmit constants.soh false
    let s := s.txEmit d false
    let s := s.txEmit constants.mode false
    let s := s.txEmit constants.sid false
    let s := s.txEmit constants.stx false
    let s := s.setBcc (d ^^^ constants.mode ^^^ constants.sid ^^^ constants.stx)
    let s := s.setPhase .opened
    s.respond false 0x00)

/-- `FPUSH b`: emit one payload byte unchanged and absorb it; `SeqFault` with no frame open (R84). -/
def execFpush (b : Byte) (s : State) : Host.Outcome State Fault Refusal :=
  .next (s.inPhase .opened fun s =>
    let s := s.txEmit b false
    let s := s.setBcc (s.bcc ^^^ b)
    s.respond false 0x00)

/-- `FEND`: emit `ETX`, absorb it, emit the new `BCC` with `last = 1` without absorbing it, close the frame; `SeqFault` with
no frame open (R85). -/
def execFend (s : State) : Host.Outcome State Fault Refusal :=
  .next (s.inPhase .opened fun s =>
    let s := s.txEmit constants.etx false
    let s := s.setBcc (s.bcc ^^^ constants.etx)
    let s := s.txEmit s.bcc true
    let s := s.setPhase .idle
    s.respond false 0x00)

end Sys2Proof.Machine
end

