-- ==== Sys2Proof/Machine/Dispatch.lean ====
section
/-! DEFINITION. One arm per operation, each one call of its meaning (spec/30_encoding.md R46). -/

namespace Sys2Proof.Machine

/-- What an operation does. -/
def exec (i : Instr) (s : State) : Host.Outcome State Fault Refusal :=
  match i with
  | .nop => Sys2Proof.Machine.execNop s
  | .xclr => Sys2Proof.Machine.execXclr s
  | .xabs b => Sys2Proof.Machine.execXabs b s
  | .xrd => Sys2Proof.Machine.execXrd s
  | .fstart d => Sys2Proof.Machine.execFstart d s
  | .fpush b => Sys2Proof.Machine.execFpush b s
  | .fend => Sys2Proof.Machine.execFend s
  | .carm => Sys2Proof.Machine.execCarm s
  | .cbyte b => Sys2Proof.Machine.execCbyte b s
  | .crd => Sys2Proof.Machine.execCrd s
  | .srd => Sys2Proof.Machine.execSrd s
  | .reservedB => Sys2Proof.Machine.execReservedB s
  | .reservedC => Sys2Proof.Machine.execReservedC s
  | .reservedD => Sys2Proof.Machine.execReservedD s
  | .reservedE => Sys2Proof.Machine.execReservedE s
  | .reservedF => Sys2Proof.Machine.execReservedF s

end Sys2Proof.Machine
end

