-- ==== Sys2Proof/Machine/Step.lean ====
section
/-! DEFINITION. One step: the next input is taken and carried out whole, a command word by decoding it and running the
operation, a reset event by resetting (spec/10_state.md R17, R22, spec/20_memory.md R35, R36,
spec/70_reset_and_hazards.md R170, R171). -/

namespace Sys2Proof.Machine

/-- One step of the block (log 2 for the step with nothing presented). -/
def step (s : State) : Host.Outcome State Fault Refusal :=
  match s.takeInput with
  | none => .next s.waiting
  | some (.command w, t) => exec (decode w) t
  | some (.reset, t) => .next t.resetEvent

/-- `s` with the command word `w` presented as the very next input (log 3); `s` itself where the low `nbits` bits of `w` are
no command word (log 9). -/
def State.withFetchWord (s : State) (nbits w : Nat) : State :=
  match commandWordOfNat (w % 2 ^ nbits) with
  | some cw => s.present cw
  | none => s

end Sys2Proof.Machine
end

