-- ==== Sys2Proof/WellFormed.lean ====
section
/-! DEFINITION. Which source lines are well formed (spec/30_encoding.md R58). `Instr` itself admits no ill-formed term:
its operands are bytes by type (R47; spec/93_implementation_defined.md U7). The unchecked form is the assembler line,
whose operand is any number or absent, and whose raw word is any number; the checks stand here. -/

namespace Sys2Proof

/-- The eleven mnemonics of R46, R58 (a reserved code has none: it is written as a raw word). -/
inductive Mnemonic where
  | nop | xclr | xabs | xrd | fstart | fpush | fend | carm | cbyte | crd | srd
  deriving DecidableEq, Repr

/-- One line of assembly (R58): a mnemonic with or without an operand, or a raw command word. -/
inductive SourceLine where
  | operation (name : Mnemonic) (operand : Option Nat)
  | raw (word : Nat)
  deriving DecidableEq, Repr

/-- The four operations with an operand (R45, R58). -/
def Mnemonic.takesOperand : Mnemonic → Bool
  | .xabs | .fstart | .fpush | .cbyte => true
  | .nop | .xclr | .xrd | .fend | .carm | .crd | .srd => false

/-- An operand stands exactly where the operation takes one (R58). -/
def SourceLine.operandWherePermitted : SourceLine → Bool
  | .operation name operand => operand.isSome == name.takesOperand
  | .raw _ => true

/-- An operand is one byte (R47, R58). -/
def SourceLine.operandFits : SourceLine → Bool
  | .operation _ (some v) => decide (v < 256)
  | .operation _ none => true
  | .raw _ => true

/-- A raw word is twelve bits (R45, R58). -/
def SourceLine.rawFits : SourceLine → Bool
  | .operation _ _ => true
  | .raw w => decide (w < 4096)

/-- The three checks together. -/
def SourceLine.WellFormed (l : SourceLine) : Bool :=
  l.operandWherePermitted && l.operandFits && l.rawFits

/-- The line an operation is written as (R58): its mnemonic and operand, or, for a reserved code, the raw word with `arg`
zero. -/
def Instr.source : Instr → SourceLine
  | .nop => .operation .nop none
  | .xclr => .operation .xclr none
  | .xabs b => .operation .xabs (some b.toNat)
  | .xrd => .operation .xrd none
  | .fstart d => .operation .fstart (some d.toNat)
  | .fpush b => .operation .fpush (some b.toNat)
  | .fend => .operation .fend none
  | .carm => .operation .carm none
  | .cbyte b => .operation .cbyte (some b.toNat)
  | .crd => .operation .crd none
  | .srd => .operation .srd none
  | .reservedB => .raw 0xB00
  | .reservedC => .raw 0xC00
  | .reservedD => .raw 0xD00
  | .reservedE => .raw 0xE00
  | .reservedF => .raw 0xF00

/-- An operation is well formed when the line it is written as is; every operation is
(Sys2Proof.Laws.SourceForm, one lemma per constructor). -/
def Instr.WellFormed (i : Instr) : Bool := i.source.WellFormed

end Sys2Proof
end

