-- ==== Sys2Proof/Machine/Assembler.lean ====
section
/-! DEFINITION. The assembly syntax (spec/30_encoding.md R58) and the three pseudo-instructions with their expansions (R59).
Text is a list of characters; one line is one operation. -/

namespace Sys2Proof.Machine

/-- A mnemonic in capitals (R46, R58). -/
def mnemonicText : Mnemonic → List Char
  | .nop => ['N', 'O', 'P']
  | .xclr => ['X', 'C', 'L', 'R']
  | .xabs => ['X', 'A', 'B', 'S']
  | .xrd => ['X', 'R', 'D']
  | .fstart => ['F', 'S', 'T', 'A', 'R', 'T']
  | .fpush => ['F', 'P', 'U', 'S', 'H']
  | .fend => ['F', 'E', 'N', 'D']
  | .carm => ['C', 'A', 'R', 'M']
  | .cbyte => ['C', 'B', 'Y', 'T', 'E']
  | .crd => ['C', 'R', 'D']
  | .srd => ['S', 'R', 'D']

/-- The eleven mnemonics, in the order of their codes (R46). -/
def allMnemonics : List Mnemonic :=
  [.nop, .xclr, .xabs, .xrd, .fstart, .fpush, .fend, .carm, .cbyte, .crd, .srd]

/-- The sixteen hexadecimal digits, in the capitals R58's examples use (log 8). -/
def hexDigits : List Char :=
  ['0', '1', '2', '3', '4', '5', '6', '7', '8', '9', 'A', 'B', 'C', 'D', 'E', 'F']

/-- The digit of a number below 16. -/
def hexDigitText (v : Nat) : Char := hexDigits.getD (v % 16) '0'

/-- The value of a digit. -/
def hexDigitValue (c : Char) : Option Nat := hexDigits.idxOf? c

/-- The text of a line: mnemonic, then one byte as two hex digits without a leading mark; a raw word as `0x` and three hex
digits (R58). -/
def lineText : SourceLine → List Char
  | .operation name none => mnemonicText name
  | .operation name (some v) => mnemonicText name ++ [' ', hexDigitText (v / 16), hexDigitText v]
  | .raw w => ['0', 'x', hexDigitText (w / 256), hexDigitText (w / 16), hexDigitText w]

/-- The operand part of a line after its mnemonic: nothing, or one blank and two hex digits (log 8). -/
def parseOperand : List Char → Option (Option Nat)
  | [] => some none
  | [' ', h, l] =>
    match hexDigitValue h, hexDigitValue l with
    | some a, some b => some (some (16 * a + b))
    | _, _ => none
  | _ => none

/-- The first mnemonic of the list the line begins with, and what follows it. -/
def matchMnemonic (text : List Char) : List Mnemonic → Option (Mnemonic × List Char)
  | [] => none
  | m :: ms =>
    if (mnemonicText m).isPrefixOf text then some (m, text.drop (mnemonicText m).length)
    else matchMnemonic text ms

/-- Read one line; none where it is no well-formed line of R58. -/
def parseLine (text : List Char) : Option SourceLine :=
  let line : Option SourceLine :=
    match text with
    | ['0', 'x', a, b, c] =>
      match hexDigitValue a, hexDigitValue b, hexDigitValue c with
      | some x, some y, some z => some (.raw (256 * x + 16 * y + z))
      | _, _, _ => none
    | _ =>
      match matchMnemonic text allMnemonics with
      | some (m, rest) => (parseOperand rest).map (SourceLine.operation m)
      | none => none
  line.filter SourceLine.WellFormed

/-- The operation a mnemonic with an operand byte names; the byte plays no part where the mnemonic takes none (R46). -/
def mnemonicInstr (m : Mnemonic) (arg : Byte) : Instr :=
  match m with
  | .nop => .nop
  | .xclr => .xclr
  | .xabs => .xabs arg
  | .xrd => .xrd
  | .fstart => .fstart arg
  | .fpush => .fpush arg
  | .fend => .fend
  | .carm => .carm
  | .cbyte => .cbyte arg
  | .crd => .crd
  | .srd => .srd

/-- The encoding of a line, `(op << 8) | arg`, with `arg = 0x00` where there is no operand; a raw word as it stands (R58).
An ill-formed line has none. -/
def assemble (l : SourceLine) : Option CommandWord :=
  if l.WellFormed then
    match l with
    | .operation m operand => some (encode (mnemonicInstr m (BitVec.ofNat 8 (operand.getD 0))))
    | .raw w => commandWordOfNat w
  else none

/-- A program text, one operation per line (R58); none where a line is no well-formed line. -/
def assembleProgram (lines : List (List Char)) : Option (List CommandWord) :=
  lines.mapM fun l => (parseLine l).bind assemble

/-- `FRAME d, p0 ... p(n-1)` (R59). -/
def expandFrame (d : Byte) (p : List Byte) : List Instr := .fstart d :: p.map .fpush ++ [.fend]

/-- `XSUM b0 ... b(k-1)` (R59). -/
def expandXsum (b : List Byte) : List Instr := .xclr :: b.map .xabs ++ [.xrd]

/-- `CLASSIFY r0 ... r(m-1)` (R59). -/
def expandClassify (r : List Byte) : List Instr := .carm :: r.map .cbyte ++ [.crd]

/-- Operations as the inputs the host presents, in order (R22, R58). -/
def presented (ops : List Instr) : List Input := ops.map fun i => .command (encode i)

end Sys2Proof.Machine
end

