-- ==== Sys2Proof/Machine/Run.lean ====
section
/-! DEFINITION. A run: steps from a state, in order (spec/70_reset_and_hazards.md R173). -/

namespace Sys2Proof.Machine

/-- `n` steps, one after the other. -/
def run : Nat → State → Host.Outcome State Fault Refusal
  | 0, s => .next s
  | n + 1, s =>
    match step s with
    | .next t => run n t
    | .fault f => .fault f
    | .refused r => .refused r

end Sys2Proof.Machine
end

