-- ==== Sys2Proof/Machine/Exchange.lean ====
section
/-! DEFINITION. The host around the block, as functions that drive the block's step (spec/49_host_environment.md). It is no
part of the machine: spec/00_scope.md R3 (b) puts it outside the block, and no meaning uses this file. The transport
(R121) is a script: what its reads return and its writes answer is data, any at all, so the camera may do anything
(spec/93_implementation_defined.md U6, U8). Where the spec leaves the host's behaviour open the function refuses by
name (log 10). -/

namespace Sys2Proof.Machine.Exchange

/-- What one transport read gives: bytes (none on a timeout), or an exception (R121, R127). -/
inductive ReadResult where
  | bytes (s : List Byte)
  | exception
  deriving DecidableEq, Repr

/-- What one transport write answers: the count written, or a failure (R121). -/
inductive WriteResult where
  | count (n : Nat)
  | failure
  deriving DecidableEq, Repr

/-- The transport's script and record. `reads` and `writes` are what the next reads and writes give: after the last, reads
are empty and writes take everything. -/
structure Transport where
  reads : List ReadResult
  writes : List WriteResult
  /-- the byte sequences written, oldest first -/
  written : List (List Byte)
  /-- how many reads were made -/
  readsMade : Nat
  /-- how many read exceptions were logged (R127) -/
  readErrors : Nat
  /-- the waits made, in milliseconds, oldest first (R124) -/
  waits : List Nat
  deriving DecidableEq, Repr

/-- The block and the transport, as the host has them. -/
structure World where
  block : State
  transport : Transport
  deriving DecidableEq, Repr

/-- A transport before its first use. -/
def Transport.fresh (reads : List ReadResult) : Transport where
  reads := reads
  writes := []
  written := []
  readsMade := 0
  readErrors := 0
  waits := []

/-- Why the host model says nothing of a run. All are safe: it stops where a real host would go on. -/
inductive Unspecified where
  /-- a failed or short write inside `issue`: left open (R127; U18) -/
  | writeNotTakenWhole
  /-- an exception on the status read after an ACK: the spec does not say what the workflow does (R131) -/
  | statusReadFailed
  /-- a read gave more than `max_length` bytes, against the transport's contract (R121) -/
  | readTooLong
  /-- the block stopped or gave no class code: no step of the block does either -/
  | blockStopped
  deriving DecidableEq, Repr

/-- The Exchange Outcome (R129): ACK and NAK carry the bytes of the read that decided them, a time-out none (D28). -/
inductive ExchangeOutcome where
  | acknowledged (r : List Byte)
  | rejected (r : List Byte)
  | timedOut
  deriving DecidableEq, Repr

/-- The host's errors (R135). -/
inductive HostError where
  /-- a failure at the I/O boundary; raised by a session open that fails -/
  | transportError
  /-- the camera returned NAK -/
  | protocolRejected
  /-- the retry budget ran out -/
  | protocolTimeout
  /-- a status shorter than 5 bytes -/
  | malformedStatus
  /-- a status with a byte that is no hex digit -/
  | invalidDigits
  deriving DecidableEq, Repr

/-- The session open: a transport that does not open is fatal, `TransportError` (R122, R135). -/
def openSession (opened : Option Transport) (block : State) : Except HostError World :=
  match opened with
  | some t => .ok (World.mk block t)
  | none => .error .transportError

/-- `hexval(b)` (R134). -/
def hexval (b : Byte) : Option Nat :=
  if 0x30 ≤ b.toNat ∧ b.toNat ≤ 0x39 then some (b.toNat - 0x30)
  else if 0x41 ≤ b.toNat ∧ b.toNat ≤ 0x46 then some (b.toNat - 0x37)
  else if 0x61 ≤ b.toNat ∧ b.toNat ≤ 0x66 then some (b.toNat - 0x57)
  else none

/-- `decode_status(s)`: the length first, then the four digits, most significant first; later bytes are only counted (R132,
R133). -/
def decodeStatus : List Byte → Except HostError Nat
  | a :: b :: c :: d :: _ :: _ =>
    match hexval a, hexval b, hexval c, hexval d with
    | some w, some x, some y, some z => .ok (w * 4096 + x * 256 + y * 16 + z)
    | _, _, _, _ => .error .invalidDigits
  | _ => .error .malformedStatus

/-- One transport read of at most `max` bytes (R121). -/
def transportRead (max : Nat) (t : Transport) : Except Unspecified (ReadResult × Transport) :=
  match t.reads with
  | [] => .ok (.bytes [], { t with readsMade := t.readsMade + 1 })
  | .exception :: rest => .ok (.exception, { t with reads := rest, readsMade := t.readsMade + 1 })
  | .bytes s :: rest =>
    if s.length ≤ max then .ok (.bytes s, { t with reads := rest, readsMade := t.readsMade + 1 })
    else .error .readTooLong

/-- `read_or_empty()`: an exception is logged and counts as an empty read (R126, R127). -/
def readOrEmpty (max : Nat) (t : Transport) : Except Unspecified (List Byte × Transport) :=
  match transportRead max t with
  | .ok (.bytes s, t) => .ok (s, t)
  | .ok (.exception, t) => .ok ([], { t with readErrors := t.readErrors + 1 })
  | .error e => .error e

/-- One transport write; what the host does when it is not taken whole is left open (R127; U18). -/
def transportWrite (s : List Byte) (t : Transport) : Except Unspecified Transport :=
  match t.writes with
  | [] => .ok { t with written := t.written ++ [s] }
  | .failure :: _ => .error .writeNotTakenWhole
  | .count n :: rest =>
    if n = s.length then .ok { t with writes := rest, written := t.written ++ [s] }
    else .error .writeNotTakenWhole

/-- The next write of `n` bytes is taken whole: the script of writes is at its end (log 14), or its next answer is the
count `n` (R121). -/
def Transport.TakesWhole (n : Nat) (t : Transport) : Prop :=
  t.writes = [] ∨ ∃ rest, t.writes = .count n :: rest

/-- A host wait, in milliseconds (R124, R126). -/
def pause (ms : Nat) (t : Transport) : Transport := { t with waits := t.waits ++ [ms] }

/-- Issue operations to the block and let it answer every one: the words are presented on the command port after whatever
stands there, and the block steps until the port is empty (R22, R120). DESIGN CHOICE (log 19): what is still pending runs
first, and its beats stand before those of `ops`. -/
def drive (ops : List Instr) (s : State) : Except Unspecified State :=
  let s := { s with inputs := s.inputs ++ presented ops }
  match run s.inputs.length s with
  | .next t => .ok t
  | .fault _ => .error .blockStopped
  | .refused _ => .error .blockStopped

/-- The bytes of beats up to and with the first that has `last = 1` (R123). -/
def bytesThroughLast : List Beat → List Byte
  | [] => []
  | b :: bs => if b.last then [b.byte] else b.byte :: bytesThroughLast bs

/-- `send(d, p)`: build the frame in the block, collect what it appended to `TX`, write it (R123). DESIGN CHOICE, unsafe
(log 19): the fault bits of the responses are not checked. R123 speaks only of the `n + 7` bytes of a frame that was
accepted, and R178 advises the check without saying what follows a refusal. With a frame already open `FSTART` is refused
and the `n + 2` bytes the rest appends, up to the beat with `last = 1`, are what is written. -/
def send (d : Byte) (p : List Byte) (w : World) : Except Unspecified World :=
  match drive (expandFrame d p) w.block with
  | .error e => .error e
  | .ok block =>
    match transportWrite (bytesThroughLast (block.tx.drop w.block.tx.length)) w.transport with
    | .error e => .error e
    | .ok transport => .ok (World.mk block transport)

/-- `classify(r)`: one window of the block; the class is read from the `CRD` response (R123). -/
def classifyWithBlock (r : List Byte) (w : World) : Except Unspecified (ResponseClass × World) :=
  match drive (expandClassify r) w.block with
  | .error e => .error e
  | .ok block =>
    match block.rsp.getLast? with
    | none => .error .blockStopped
    | some word =>
      match ResponseClass.ofCode (word.data.extractLsb' 0 2) with
      | some c => .ok (c, World.mk block w.transport)
      | none => .error .blockStopped

/-- The loop of R126 in state `AwaitingResponse`: `retriesLeft` is `max_retries - retries`, and the test for a time-out comes
before the next read is counted (spec/90_conflicts.md C4). The frame is not sent again (R128). -/
def awaitResponse (prm : HostParameters) : Nat → List Byte → World → Except Unspecified (ExchangeOutcome × World)
  | retriesLeft, r, w =>
    match classifyWithBlock r w with
    | .error e => .error e
    | .ok (.ack, w) => .ok (.acknowledged r, w)
    | .ok (.nak, w) => .ok (.rejected r, w)
    | .ok (.indet, w) =>
      match retriesLeft with
      | 0 => .ok (.timedOut, w)
      | n + 1 =>
        match readOrEmpty prm.readMax (pause prm.pollInterval w.transport) with
        | .error e => .error e
        | .ok (r, t) => awaitResponse prm n r (World.mk w.block t)

/-- `issue(d, p, ...)` (R124 to R126). -/
def issue (prm : HostParameters) (d : Byte) (p : List Byte) (w : World) :
    Except Unspecified (ExchangeOutcome × World) :=
  match send d p w with
  | .error e => .error e
  | .ok w =>
    match readOrEmpty prm.readMax (pause prm.initialSettle w.transport) with
    | .error e => .error e
    | .ok (r, t) => awaitResponse prm prm.maxRetries r (World.mk w.block t)

/-- The one command payload the spec gives, the zoom query `43 30 30 30 30 30` (R60, R131). -/
def zoomPayload : List Byte := [0x43, 0x30, 0x30, 0x30, 0x30, 0x30]

/-- `get_zoom_position(d)` (R130, R131): the workflow, not `issue`, reads the status (spec/90_conflicts.md C3). -/
def getZoomPosition (prm : HostParameters) (d : Byte) (w : World) :
    Except Unspecified (Except HostError Nat × World) :=
  match issue prm d zoomPayload w with
  | .error e => .error e
  | .ok (.rejected _, w) => .ok (.error .protocolRejected, w)
  | .ok (.timedOut, w) => .ok (.error .protocolTimeout, w)
  | .ok (.acknowledged _, w) =>
    match transportRead prm.readMax w.transport with
    | .error e => .error e
    | .ok (.exception, _) => .error .statusReadFailed
    | .ok (.bytes s, t) => .ok (decodeStatus s, World.mk w.block t)

end Sys2Proof.Machine.Exchange
end

