-- ==== Sys2Proof/Safety.lean ====
section
/-! DEFINITION. What counts as a good run and the invariants claims use, in the spec's terms: quiescent and clean ends
(spec/70_reset_and_hazards.md R173), the empty window (spec/10_state.md R14), the open frame's parity (R11, R12), what
the marked beats close (R20, R51) and what a response word may hold (R50, R57). -/

namespace Sys2Proof.Machine

/-- No frame left open (R173). -/
def State.Quiescent (s : State) : Prop := s.fph = .idle

/-- Quiescent, and no fault recorded (R155, R173). -/
def State.Clean (s : State) : Prop := s.Quiescent ∧ s.eOp = false ∧ s.eSeq = false

/-- While `SEEN = 0`, `CLASS = INDET` (R14). -/
def State.WindowOk (s : State) : Prop := s.seen = false → s.cls = .indet

/-- While a frame is open, `TX` ends with its header and the payload so far, and `BCC` is the parity of the covered bytes
(R11, R12, R55). -/
def State.OpenFrameOk (s : State) : Prop :=
  s.fph = .opened →
    ∃ before d p, s.tx = before ++ plainBeats (headerBytes d ++ p) ∧ s.bcc = xor8 (openBody d p)

/-- Every beat marked `last` ends a whole frame with that frame's own checksum (R20, R51, R80). -/
def State.MarkedBeatsOk (s : State) : Prop :=
  ∀ before c after, s.tx = before ++ Beat.mk c true :: after →
    ∃ earlier d p, before ++ [Beat.mk c true] = earlier ++ frameBeats d p

/-- A response with the fault bit carries one of the two cause codes (R50, R57). -/
def State.ResponsesOk (s : State) : Prop :=
  ∀ r ∈ s.rsp, r.fault = true → r.data = BlockFault.opFault.code ∨ r.data = BlockFault.seqFault.code

/-- The invariant of the transmit stream: open frames and marked beats together. -/
def State.TransmitOk (s : State) : Prop := s.OpenFrameOk ∧ s.MarkedBeatsOk

/-- The faults recorded in a state, as the two sticky bits say (R155). -/
def State.faultRecorded (s : State) : Bool := s.eOp || s.eSeq

end Sys2Proof.Machine
end

