-- ==== Sys2Proof/Certificates/Slice0/Obligations.lean ====
section
/-! DEFINITION. The statements for the provers. Each docstring names the rule of spec/ it formalises. A step's result is
stated as an equation of whole states, so it is also the operation's frame: a register, stream or input it does not name
is unchanged. There is no memory (spec/20_memory.md R30). -/

open Sys2Proof Sys2Proof.Machine Sys2Proof.Machine.Exchange

/-! ## Encoding -/

/-- R58 (and R45 to R48): an encoded operation decodes to itself, with its operand at every value. -/
def Obligations.DecodeEncodeGivesInstruction : Prop :=
  ∀ i : Instr, i.WellFormed = true ∧ decode (encode i) = i

/-- R47, R58: encoding a decoded word gives it back, `arg` cleared where the operation ignores it. -/
def Obligations.EncodeDecodeGivesCanonicalWord : Prop :=
  ∀ w : CommandWord,
    encode (decode w) = if opField w ∈ [0x2, 0x4, 0x5, 0x8] then w else w &&& 0xF00

/-- R46, R48: the operation code map in match and mask form, all sixteen rows, over all 4096 words; the operand is the
word's low byte. -/
def Obligations.OperationMapByMaskAndMatch : Prop :=
  ∀ w : CommandWord,
    (w &&& 0xF00 = 0x000 ↔ decode w = .nop) ∧
    (w &&& 0xF00 = 0x100 ↔ decode w = .xclr) ∧
    (w &&& 0xF00 = 0x200 ↔ decode w = .xabs (BitVec.ofNat 8 w.toNat)) ∧
    (w &&& 0xF00 = 0x300 ↔ decode w = .xrd) ∧
    (w &&& 0xF00 = 0x400 ↔ decode w = .fstart (BitVec.ofNat 8 w.toNat)) ∧
    (w &&& 0xF00 = 0x500 ↔ decode w = .fpush (BitVec.ofNat 8 w.toNat)) ∧
    (w &&& 0xF00 = 0x600 ↔ decode w = .fend) ∧
    (w &&& 0xF00 = 0x700 ↔ decode w = .carm) ∧
    (w &&& 0xF00 = 0x800 ↔ decode w = .cbyte (BitVec.ofNat 8 w.toNat)) ∧
    (w &&& 0xF00 = 0x900 ↔ decode w = .crd) ∧
    (w &&& 0xF00 = 0xA00 ↔ decode w = .srd) ∧
    (w &&& 0xF00 = 0xB00 ↔ decode w = .reservedB) ∧
    (w &&& 0xF00 = 0xC00 ↔ decode w = .reservedC) ∧
    (w &&& 0xF00 = 0xD00 ↔ decode w = .reservedD) ∧
    (w &&& 0xF00 = 0xE00 ↔ decode w = .reservedE) ∧
    (w &&& 0xF00 = 0xF00 ↔ decode w = .reservedF)

/-- R46, R58: words the spec writes out, one or more of every unit. -/
def Obligations.WrittenWordsDecode : Prop :=
  decode 0x000 = .nop ∧ decode 0x0FF = .nop ∧ decode 0x100 = .xclr ∧ decode 0x281 = .xabs 0x81 ∧
  decode 0x300 = .xrd ∧ decode 0x431 = .fstart 0x31 ∧ decode 0x543 = .fpush 0x43 ∧ decode 0x600 = .fend ∧
  decode 0x700 = .carm ∧ decode 0x806 = .cbyte 0x06 ∧ decode 0x900 = .crd ∧ decode 0xA00 = .srd ∧
  decode 0xB00 = .reservedB ∧ decode 0xC37 = .reservedC ∧ decode 0xFFF = .reservedF

/-- R47: `arg` is used as it stands by the four operations with an operand; for every other code all 256 values of `arg`
select the same operation, which the assembler writes with `arg` zero. -/
def Obligations.ArgumentUsedAsItStandsOrIgnored : Prop :=
  (∀ a : Byte, decode (commandWord 0x2 a) = .xabs a ∧ decode (commandWord 0x4 a) = .fstart a ∧
    decode (commandWord 0x5 a) = .fpush a ∧ decode (commandWord 0x8 a) = .cbyte a) ∧
  (∀ (op : BitVec 4) (a : Byte), op ∉ [0x2, 0x4, 0x5, 0x8] →
    decode (commandWord op a) = decode (commandWord op 0x00)) ∧
  (∀ (op : BitVec 4) (a : Byte), op ∉ [0x2, 0x4, 0x5, 0x8] → encode (decode (commandWord op a)) = commandWord op 0x00)

/-- R58: the text of an operation's line reads back as that line. The choice of capitals for hex digits is the model's
(log 8). -/
def Obligations.AssemblyTextReadsBack : Prop :=
  ∀ i : Instr, parseLine (lineText i.source) = some i.source

/-- R50, R51: the fields of response words and beats stand where the spec puts them, and the words carry nothing else. -/
def Obligations.PortWordsCarryTheirFields : Prop :=
  (∀ r : Response, r.word.getLsbD 8 = r.fault ∧ r.word.extractLsb' 0 8 = r.data ∧ Response.ofWord r.word = r) ∧
  (∀ w : ResponseWord, (Response.ofWord w).word = w) ∧
  (∀ b : Beat, b.word.getLsbD 8 = b.last ∧ b.word.extractLsb' 0 8 = b.byte ∧ Beat.ofWord b.word = b) ∧
  (∀ w : BeatWord, (Beat.ofWord w).word = w)

/-! ## Reset and the step -/

/-- R23: what reset leaves, the view `STAT` and the empty histories included. -/
def Obligations.ResetHoldsSpecValues : Prop :=
  State.reset.bcc = 0x00 ∧ State.reset.fph = .idle ∧ State.reset.seen = false ∧ State.reset.cls = .indet ∧
  State.reset.eOp = false ∧ State.reset.eSeq = false ∧ stat State.reset = 0x00 ∧ State.reset.tx = [] ∧
  State.reset.rsp = []

/-- R5: the seven hardwired bytes. -/
def Obligations.HardwiredBytesAreTheSpecs : Prop :=
  constants.soh = 0x01 ∧ constants.mode = 0x81 ∧ constants.sid = 0x20 ∧ constants.stx = 0x02 ∧
  constants.etx = 0x03 ∧ constants.ack = 0x06 ∧ constants.nak = 0x15

/-- R17, R22: a step runs the operation the next presented word decodes to, on the state with that word taken. That the
inputs are one list is the model's (log 1). -/
def Obligations.StepRunsPresentedCommand : Prop :=
  ∀ (s : State) (i : Instr) (w : CommandWord) (rest : List Input),
    s.inputs = .command w :: rest → decode w = i → step s = exec i { s with inputs := rest }

/-- R170, R171: a reset event loads every register with its reset value, gives no response and no beat, and leaves the
histories and what is still to come. -/
def Obligations.ResetEventLoadsEveryRegister : Prop :=
  ∀ (s : State) (rest : List Input), s.inputs = .reset :: rest →
    step s = .next
      { bcc := 0x00, fph := .idle, seen := false, cls := .indet, eOp := false, eSeq := false,
        inputs := rest, rsp := s.rsp, tx := s.tx }

/-- R36, R183, R22, R171: inputs are carried out one at a time in the order presented, every one completes, and what is
presented later plays no part in it. R36 and R183 speak of operations, R171 places reset events between them; that command
words and reset events stand in one list, one step each, is the model's choice (log 1). -/
def Obligations.InputsCompleteInOrder : Prop :=
  ∀ (s : State) (now later : List Input), ∃ t,
    Machine.run now.length { s with inputs := now } = .next t ∧ t.inputs = [] ∧
    Machine.run now.length { s with inputs := now ++ later } = .next { t with inputs := later }

/-! ## What each operation does -/

/-- R110: `NOP` responds `0x000` and changes nothing else, in any state. -/
def Obligations.NopOnlyResponds : Prop :=
  (∀ a : Byte, decode (commandWord 0x0 a) = .nop) ∧
  ∀ s : State, exec .nop s = .next { s with rsp := s.rsp ++ [Response.mk false 0x00] }

/-- R74: `XCLR` clears `BCC` when idle; with a frame open it is `SeqFault`, and `BCC`, `FPH` and `TX` are unchanged. -/
def Obligations.XclrClearsTheAccumulator : Prop :=
  (∀ a : Byte, decode (commandWord 0x1 a) = .xclr) ∧
  (∀ s : State, s.fph = .idle →
    exec .xclr s = .next { s with bcc := 0x00, rsp := s.rsp ++ [Response.mk false 0x00] }) ∧
  (∀ s : State, s.fph = .opened →
    exec .xclr s = .next { s with eSeq := true, rsp := s.rsp ++ [Response.mk true 0x02] })

/-- R75: `XABS b` absorbs one byte when idle, from whatever `BCC` holds; with a frame open it is `SeqFault`. -/
def Obligations.XabsAbsorbsOneByte : Prop :=
  (∀ b : Byte, decode (commandWord 0x2 b) = .xabs b) ∧
  (∀ (b : Byte) (s : State), s.fph = .idle →
    exec (.xabs b) s = .next { s with bcc := s.bcc ^^^ b, rsp := s.rsp ++ [Response.mk false 0x00] }) ∧
  (∀ (b : Byte) (s : State), s.fph = .opened →
    exec (.xabs b) s = .next { s with eSeq := true, rsp := s.rsp ++ [Response.mk true 0x02] })

/-- R76: `XRD` responds `BCC` in either phase and writes no state. -/
def Obligations.XrdRespondsTheAccumulator : Prop :=
  (∀ a : Byte, decode (commandWord 0x3 a) = .xrd) ∧
  ∀ s : State, exec .xrd s = .next { s with rsp := s.rsp ++ [Response.mk false s.bcc] }

/-- R83: `FSTART d` emits the header, overwrites `BCC` and opens the frame when idle; with a frame open it is `SeqFault` and
that frame stays open. -/
def Obligations.FstartOpensAFrame : Prop :=
  (∀ d : Byte, decode (commandWord 0x4 d) = .fstart d) ∧
  (∀ (d : Byte) (s : State), s.fph = .idle →
    exec (.fstart d) s = .next
      { s with
        tx := s.tx ++ [Beat.mk constants.soh false, Beat.mk d false, Beat.mk constants.mode false,
          Beat.mk constants.sid false, Beat.mk constants.stx false]
        bcc := d ^^^ constants.mode ^^^ constants.sid ^^^ constants.stx
        fph := .opened
        rsp := s.rsp ++ [Response.mk false 0x00] }) ∧
  (∀ (d : Byte) (s : State), s.fph = .opened →
    exec (.fstart d) s = .next { s with eSeq := true, rsp := s.rsp ++ [Response.mk true 0x02] })

/-- R84: `FPUSH b` emits and absorbs one payload byte, every value unchanged, with a frame open; when idle it is
`SeqFault`. -/
def Obligations.FpushEmitsAndAbsorbs : Prop :=
  (∀ b : Byte, decode (commandWord 0x5 b) = .fpush b) ∧
  (∀ (b : Byte) (s : State), s.fph = .opened →
    exec (.fpush b) s = .next
      { s with
        tx := s.tx ++ [Beat.mk b false]
        bcc := s.bcc ^^^ b
        rsp := s.rsp ++ [Response.mk false 0x00] }) ∧
  (∀ (b : Byte) (s : State), s.fph = .idle →
    exec (.fpush b) s = .next { s with eSeq := true, rsp := s.rsp ++ [Response.mk true 0x02] })

/-- R85: `FEND` emits `ETX` and the checksum, which covers `ETX`, marks only the checksum, keeps it in `BCC` and closes the
frame; when idle it is `SeqFault`. -/
def Obligations.FendClosesTheFrame : Prop :=
  (∀ a : Byte, decode (commandWord 0x6 a) = .fend) ∧
  (∀ s : State, s.fph = .opened →
    exec .fend s = .next
      { s with
        tx := s.tx ++ [Beat.mk constants.etx false, Beat.mk (s.bcc ^^^ constants.etx) true]
        bcc := s.bcc ^^^ constants.etx
        fph := .idle
        rsp := s.rsp ++ [Response.mk false 0x00] }) ∧
  (∀ s : State, s.fph = .idle →
    exec .fend s = .next { s with eSeq := true, rsp := s.rsp ++ [Response.mk true 0x02] })

/-- R97: `CARM` opens an empty window, in either framer phase. -/
def Obligations.CarmOpensAWindow : Prop :=
  (∀ a : Byte, decode (commandWord 0x7 a) = .carm) ∧
  ∀ s : State, exec .carm s = .next
    { s with seen := false, cls := .indet, rsp := s.rsp ++ [Response.mk false 0x00] }

/-- R98: the first `CBYTE` of a window classifies its byte; a later one changes nothing but the response history. -/
def Obligations.CbyteClassifiesTheFirstByte : Prop :=
  (∀ b : Byte, decode (commandWord 0x8 b) = .cbyte b) ∧
  (∀ (b : Byte) (s : State), s.seen = false →
    exec (.cbyte b) s = .next
      { s with seen := true, cls := classify b, rsp := s.rsp ++ [Response.mk false 0x00] }) ∧
  (∀ (b : Byte) (s : State), s.seen = true →
    exec (.cbyte b) s = .next { s with rsp := s.rsp ++ [Response.mk false 0x00] })

/-- R99, R62: `CRD` responds the class code, `0x00`, `0x01` or `0x02`, and writes no state. -/
def Obligations.CrdRespondsTheClass : Prop :=
  (∀ a : Byte, decode (commandWord 0x9 a) = .crd) ∧
  (ResponseClass.indet.code = 0b00 ∧ ResponseClass.ack.code = 0b01 ∧ ResponseClass.nak.code = 0b10) ∧
  (∀ c : ResponseClass, c.code ≠ 0b11 ∧ classData c = c.code.zeroExtend 8) ∧
  (∀ s : State, s.cls = .indet → exec .crd s = .next { s with rsp := s.rsp ++ [Response.mk false 0x00] }) ∧
  (∀ s : State, s.cls = .ack → exec .crd s = .next { s with rsp := s.rsp ++ [Response.mk false 0x01] }) ∧
  (∀ s : State, s.cls = .nak → exec .crd s = .next { s with rsp := s.rsp ++ [Response.mk false 0x02] })

/-- R111: `SRD` responds `STAT`, as its fields weigh, and writes no state; `STAT` is at most `0x2F`. -/
def Obligations.SrdRespondsTheStatus : Prop :=
  (∀ a : Byte, decode (commandWord 0xA a) = .srd) ∧
  (∀ s : State, exec .srd s = .next { s with rsp := s.rsp ++ [Response.mk false (stat s)] }) ∧
  (∀ s : State, (stat s).toNat =
    16 * s.cls.code.toNat + 8 * s.seen.toNat + 4 * s.fph.bit.toNat + 2 * s.eSeq.toNat + s.eOp.toNat) ∧
  (∀ s : State, (stat s).toNat ≤ 0x2F)

/-- R18: every field of `STAT` is the live value of its register, bits 7:6 are zero and `CLASS` never reads `0b11`. -/
def Obligations.StatusFieldsAreLive : Prop :=
  ∀ s : State,
    (stat s).getLsbD 0 = s.eOp ∧ (stat s).getLsbD 1 = s.eSeq ∧
    ((stat s).getLsbD 2 = true ↔ s.fph = .opened) ∧ (stat s).getLsbD 3 = s.seen ∧
    (stat s).extractLsb' 4 2 = s.cls.code ∧ s.cls.code ≠ 0b11 ∧ (stat s).extractLsb' 6 2 = 0b00

/-- R112, R56: each reserved operation completes by taking `OpFault`, whatever the state: `E_OP` is set, the response is
`0x101`, nothing else changes; and every word with a code from `0xB` on, whatever its `arg`, is one of them. -/
def Obligations.ReservedCodesTakeOpFault : Prop :=
  (∀ (i : Instr) (s : State), i ∈ [.reservedB, .reservedC, .reservedD, .reservedE, .reservedF] →
    exec i s = .next { s with eOp := true, rsp := s.rsp ++ [Response.mk true 0x01] }) ∧
  (∀ (op : BitVec 4) (arg : Byte), 0xB ≤ op.toNat →
    decode (commandWord op arg) ∈ [.reservedB, .reservedC, .reservedD, .reservedE, .reservedF]) ∧
  (Response.mk true 0x01).word = 0x101

/-! ## Faults -/

/-- R150: cause codes and response words of the two faults; each code is the `STAT` mask of the bit its fault sets. -/
def Obligations.FaultCodesAndWords : Prop :=
  BlockFault.opFault.code = 0x01 ∧ BlockFault.seqFault.code = 0x02 ∧
  (Response.mk true BlockFault.opFault.code).word = 0x101 ∧
  (Response.mk true BlockFault.seqFault.code).word = 0x102 ∧
  ∀ (s : State) (f : BlockFault),
    (s.raise f).rsp = s.rsp ++ [Response.mk true f.code] ∧ stat (s.raise f) = stat s ||| f.code

/-- R151: `SeqFault` is raised when and only when the operation and the phase before it are one of the five pairs. -/
def Obligations.SeqFaultOnExactlyFivePairs : Prop :=
  ∀ (i : Instr) (s t : State), exec i s = .next t →
    (t.rsp = s.rsp ++ [Response.mk true 0x02] ↔
      (s.fph = .opened ∧ (i = .xclr ∨ (∃ b, i = .xabs b) ∨ ∃ d, i = .fstart d)) ∨
      (s.fph = .idle ∧ ((∃ b, i = .fpush b) ∨ i = .fend)))

/-- R152: `OpFault` is raised when and only when the code is `0xB` or above. -/
def Obligations.OpFaultOnExactlyReservedCodes : Prop :=
  ∀ (w : CommandWord) (s t : State), exec (decode w) s = .next t →
    (t.rsp = s.rsp ++ [Response.mk true 0x01] ↔ 0xB ≤ (w.extractLsb' 8 4).toNat)

/-- R153, R154: fault entry. A faulted operation sets its own sticky bit and responds with its code, and nothing else
changes. -/
def Obligations.FaultEntryChangesNothingElse : Prop :=
  ∀ (i : Instr) (s t : State) (code : Byte), exec i s = .next t → t.rsp = s.rsp ++ [Response.mk true code] →
    (code = 0x01 ∧ t = { s with eOp := true, rsp := s.rsp ++ [Response.mk true 0x01] }) ∨
    (code = 0x02 ∧ t = { s with eSeq := true, rsp := s.rsp ++ [Response.mk true 0x02] })

/-- R15, R16, R155: exactly what sets each sticky bit; no operation clears one, a reset event
clears both, and nothing else does. -/
def Obligations.StickyBitsSetExactlyAndClearedByReset : Prop :=
  (∀ (i : Instr) (s t : State), exec i s = .next t →
    (t.eOp = true ↔ s.eOp = true ∨ i ∈ [.reservedB, .reservedC, .reservedD, .reservedE, .reservedF]) ∧
    (t.eSeq = true ↔ s.eSeq = true ∨
      (s.fph = .opened ∧ (i = .xclr ∨ (∃ b, i = .xabs b) ∨ ∃ d, i = .fstart d)) ∨
      (s.fph = .idle ∧ ((∃ b, i = .fpush b) ∨ i = .fend)))) ∧
  (∀ s t : State, step s = .next t →
    (s.eOp = true ∧ t.eOp = false) ∨ (s.eSeq = true ∧ t.eSeq = false) → ∃ rest, s.inputs = .reset :: rest) ∧
  (∀ (s t : State) (rest : List Input), s.inputs = .reset :: rest → step s = .next t →
    t.eOp = false ∧ t.eSeq = false)

/-- R155: over any sequence of operations begun with no fault recorded, the sticky bits end clear exactly when no response
had the fault bit. -/
def Obligations.StickyBitsTellOfEveryFault : Prop :=
  ∀ (ops : List Instr) (s : State), s.eOp = false → s.eSeq = false → ∃ t answers,
    Machine.run ops.length { s with inputs := presented ops } = .next t ∧
    t.rsp = s.rsp ++ answers ∧ answers.length = ops.length ∧
    (t.faultRecorded = false ↔ ∀ r ∈ answers, r.fault = false)

/-! ## Whole-machine rules -/

/-- R21, R50: every operation gives exactly one response word; its data is `BCC`, the class code or `STAT` for the three
reads, a cause code on a fault, and `0x00` otherwise. -/
def Obligations.OneResponsePerOperation : Prop :=
  ∀ (i : Instr) (s : State), ∃ t r, exec i s = .next t ∧ t.rsp = s.rsp ++ [r] ∧
    (r.fault = true → r.data = 0x01 ∨ r.data = 0x02) ∧
    (r.fault = false → r.data =
      match i with
      | .xrd => s.bcc
      | .crd => s.cls.code.zeroExtend 8
      | .srd => stat s
      | _ => 0x00)

/-- R31: which operation writes which of the six registers, how many beats it appends, and that it appends one response. -/
def Obligations.WhatEachOperationReaches : Prop :=
  ∀ (i : Instr) (s t : State), exec i s = .next t →
    (t.bcc ≠ s.bcc → i = .xclr ∨ (∃ b, i = .xabs b) ∨ (∃ d, i = .fstart d) ∨ (∃ b, i = .fpush b) ∨ i = .fend) ∧
    (t.fph ≠ s.fph → (∃ d, i = .fstart d) ∨ i = .fend) ∧
    (t.seen ≠ s.seen ∨ t.cls ≠ s.cls → i = .carm ∨ ∃ b, i = .cbyte b) ∧
    (t.eOp ≠ s.eOp → i ∈ [.reservedB, .reservedC, .reservedD, .reservedE, .reservedF]) ∧
    (t.eSeq ≠ s.eSeq → i = .xclr ∨ (∃ b, i = .xabs b) ∨ (∃ d, i = .fstart d) ∨ (∃ b, i = .fpush b) ∨ i = .fend) ∧
    (∃ r, t.rsp = s.rsp ++ [r]) ∧
    t.inputs = s.inputs ∧
    ∃ beats, t.tx = s.tx ++ beats ∧
      beats.length =
        match i, s.fph with
        | .fstart _, .idle => 5
        | .fpush _, .opened => 1
        | .fend, .opened => 2
        | _, _ => 0

/-- R86, R12: the framer's phase transitions, all operations in both phases, with which of them are refused. -/
def Obligations.FramerPhaseTransitions : Prop :=
  ∀ (i : Instr) (s : State), ∃ t r, exec i s = .next t ∧ t.rsp = s.rsp ++ [r] ∧
    match i, s.fph with
    | .fstart _, .idle => t.fph = .opened ∧ r.fault = false
    | .fstart _, .opened => t.fph = .opened ∧ r = Response.mk true 0x02
    | .fpush _, .idle => t.fph = .idle ∧ r = Response.mk true 0x02
    | .fpush _, .opened => t.fph = .opened ∧ r.fault = false
    | .fend, .idle => t.fph = .idle ∧ r = Response.mk true 0x02
    | .fend, .opened => t.fph = .idle ∧ r.fault = false
    | .xclr, .idle => t.fph = .idle ∧ r.fault = false
    | .xabs _, .idle => t.fph = .idle ∧ r.fault = false
    | .xclr, .opened => t.fph = .opened ∧ r = Response.mk true 0x02
    | .xabs _, .opened => t.fph = .opened ∧ r = Response.mk true 0x02
    | .xrd, p => t.fph = p ∧ r.fault = false
    | .nop, p => t.fph = p ∧ r.fault = false
    | .srd, p => t.fph = p ∧ r.fault = false
    | .carm, p => t.fph = p ∧ r.fault = false
    | .cbyte _, p => t.fph = p ∧ r.fault = false
    | .crd, p => t.fph = p ∧ r.fault = false
    | .reservedB, p => t.fph = p ∧ r = Response.mk true 0x01
    | .reservedC, p => t.fph = p ∧ r = Response.mk true 0x01
    | .reservedD, p => t.fph = p ∧ r = Response.mk true 0x01
    | .reservedE, p => t.fph = p ∧ r = Response.mk true 0x01
    | .reservedF, p => t.fph = p ∧ r = Response.mk true 0x01

/-- R104: the classifier operations touch no framer, checksum or fault state and are accepted in either phase; the framer
and checksum operations touch no classifier state, and what they do does not depend on it. -/
def Obligations.ClassifierAndFramerAreIndependent : Prop :=
  (∀ (i : Instr) (s : State), (i = .carm ∨ (∃ b, i = .cbyte b) ∨ i = .crd) → ∃ t d, exec i s = .next t ∧
    t.bcc = s.bcc ∧ t.fph = s.fph ∧ t.tx = s.tx ∧ t.eOp = s.eOp ∧ t.eSeq = s.eSeq ∧
    t.rsp = s.rsp ++ [Response.mk false d]) ∧
  (∀ (i : Instr) (s : State) (seen : Bool) (cls : ResponseClass),
    (i = .xclr ∨ (∃ b, i = .xabs b) ∨ i = .xrd ∨ (∃ d, i = .fstart d) ∨ (∃ b, i = .fpush b) ∨ i = .fend) →
    ∃ t, exec i s = .next t ∧ t.seen = s.seen ∧ t.cls = s.cls ∧
      exec i { s with seen := seen, cls := cls } = .next { t with seen := seen, cls := cls })

/-! ## Invariants -/

/-- R14: while `SEEN = 0`, `CLASS = INDET`; every step keeps it. -/
def Obligations.EmptyWindowIsIndeterminate : Prop :=
  ∀ s t : State, s.WindowOk → step s = .next t → t.WindowOk

/-- R11, R12, R20, R51, R55: while a frame is open `TX` ends with its header and payload and `BCC` is the parity of its
covered bytes, and every beat marked `last` ends a whole frame with that frame's own checksum; every step, a reset event
included, keeps it. -/
def Obligations.MarkedBeatsCloseWholeFrames : Prop :=
  ∀ s t : State, s.TransmitOk → step s = .next t → t.TransmitOk

/-- R50, R57: a response with the fault bit carries `0x01` or `0x02`; every step keeps it. -/
def Obligations.FaultResponsesCarryACause : Prop :=
  ∀ s t : State, s.ResponsesOk → step s = .next t → t.ResponsesOk

/-- The three invariants hold right after reset, and it is a clean state (R23, R173). -/
def Obligations.ResetMeetsTheInvariants : Prop :=
  State.reset.WindowOk ∧ State.reset.TransmitOk ∧ State.reset.ResponsesOk ∧ State.reset.Clean

/-! ## The functions -/

/-- R70: `xor8` by recursion at the end; bit `i` of the result is the parity of bit `i` of all the bytes. -/
def Obligations.ChecksumIsBitwiseParity : Prop :=
  xor8 [] = 0x00 ∧ (∀ s b, xor8 (s ++ [b]) = xor8 s ^^^ b) ∧
  ∀ (s : List Byte) (i : Nat), (xor8 s).getLsbD i = decide ((s.countP fun b => b.getLsbD i) % 2 = 1)

/-- R72: the laws of XOR and of `xor8`. -/
def Obligations.ChecksumLaws : Prop :=
  (∀ a b c : Byte, a ^^^ b ^^^ c = a ^^^ (b ^^^ c) ∧ a ^^^ b = b ^^^ a ∧ a ^^^ 0x00 = a ∧ b ^^^ b = 0x00) ∧
  (∀ s t : List Byte, s.Perm t → xor8 s = xor8 t) ∧
  (∀ s t : List Byte, xor8 (s ++ t) = xor8 s ^^^ xor8 t) ∧
  (∀ s : List Byte, xor8 (s ++ [xor8 s]) = 0x00) ∧
  (∀ (s : List Byte) (b : Byte), xor8 (s ++ [b, b]) = xor8 s)

/-- R73: flipping one bit of one byte flips that bit of the checksum and no other; flipping the same bit of two bytes
is not detected. -/
def Obligations.SingleBitFlipIsDetected : Prop :=
  (∀ (s : List Byte) (j i : Nat) (h : j < s.length), i < 8 →
    xor8 (s.set j (s[j] ^^^ 1#8 <<< i)) = xor8 s ^^^ 1#8 <<< i ∧
    xor8 (s.set j (s[j] ^^^ 1#8 <<< i)) ≠ xor8 s) ∧
  (∀ (s : List Byte) (j k i : Nat) (hj : j < s.length) (hk : k < s.length), j ≠ k → i < 8 →
    xor8 ((s.set j (s[j] ^^^ 1#8 <<< i)).set k (s[k] ^^^ 1#8 <<< i)) = xor8 s)

/-- R80, R81, R54: the layout, length and checksum coverage of a frame. -/
def Obligations.FrameLayout : Prop :=
  ∀ (d : Byte) (p : List Byte),
    buildFrame d p = [constants.soh, d, constants.mode, constants.sid, constants.stx] ++ p ++
      [constants.etx, xor8 ([d, constants.mode, constants.sid, constants.stx] ++ p ++ [constants.etx])] ∧
    (buildFrame d p).length = p.length + 7 ∧
    (buildFrame d p)[0]? = some 0x01 ∧ (buildFrame d p)[1]? = some d ∧ (buildFrame d p)[2]? = some 0x81 ∧
    (buildFrame d p)[3]? = some 0x20 ∧ (buildFrame d p)[4]? = some 0x02 ∧
    ((buildFrame d p).drop 5).take p.length = p ∧
    (buildFrame d p)[p.length + 5]? = some 0x03 ∧
    (buildFrame d p)[p.length + 6]? = some (xor8 (((buildFrame d p).drop 1).take (p.length + 5)))

/-- R82: the closed form of the checksum and the running parity after the header; the constants follow from R5's values. -/
def Obligations.ChecksumClosedForm : Prop :=
  ∀ (d : Byte) (p : List Byte),
    constants.mode ^^^ constants.sid ^^^ constants.stx = 0xA3 ∧ 0xA3 ^^^ constants.etx = 0xA0 ∧
    checksum d p = d ^^^ 0xA0 ^^^ xor8 p ∧ xor8 (openBody d []) = d ^^^ 0xA3 ∧ checksum d [] = d ^^^ 0xA0

/-- R78: a frame's body with its checksum XORs to zero, and the whole frame to `SOH`. -/
def Obligations.FrameCheckProperty : Prop :=
  ∀ (d : Byte) (p : List Byte),
    xor8 ((buildFrame d p).drop 1) = 0x00 ∧ xor8 (buildFrame d p) = 0x01

/-- R95, R96, R61: classification by the first byte, on all eight bits. -/
def Obligations.ClassifiedByFirstByte : Prop :=
  (∀ b : Byte, (classify b = .ack ↔ b = 0x06) ∧ (classify b = .nak ↔ b = 0x15) ∧
    (classify b = .indet ↔ b ≠ 0x06 ∧ b ≠ 0x15)) ∧
  classifyRead [] = .indet ∧ ∀ (b : Byte) (trailing : List Byte), classifyRead (b :: trailing) = classify b

/-! ## Sequences of operations -/

/-- R77: the `XSUM` sequence from an idle framer computes `xor8`, whatever `BCC` held; without the leading `XCLR` it goes on
from `BCC`. -/
def Obligations.XsumSequenceComputesTheChecksum : Prop :=
  (∀ (s : State) (b : List Byte) (rest : List Input), s.fph = .idle →
    Machine.run (b.length + 2) { s with inputs := presented (expandXsum b) ++ rest } = .next
      { s with
        bcc := xor8 b
        inputs := rest
        rsp := s.rsp ++ List.replicate (b.length + 1) (Response.mk false 0x00) ++ [Response.mk false (xor8 b)] }) ∧
  (∀ (s : State) (b : List Byte) (rest : List Input), s.fph = .idle →
    Machine.run (b.length + 1) { s with inputs := presented (b.map .xabs ++ [.xrd]) ++ rest } = .next
      { s with
        bcc := s.bcc ^^^ xor8 b
        inputs := rest
        rsp := s.rsp ++ List.replicate b.length (Response.mk false 0x00) ++
          [Response.mk false (s.bcc ^^^ xor8 b)] })

/-- R87, its first sentence: the `FRAME` sequence from an idle framer appends exactly the frame, marks only its checksum,
leaves the checksum in `BCC`, raises no fault and touches nothing else. -/
def Obligations.FrameSequenceEmitsTheFrame : Prop :=
  ∀ (s : State) (d : Byte) (p : List Byte) (rest : List Input), s.fph = .idle →
    Machine.run (p.length + 2) { s with inputs := presented (expandFrame d p) ++ rest } = .next
      { s with
        bcc := checksum d p
        inputs := rest
        tx := s.tx ++ plainBeats ((buildFrame d p).take (p.length + 6)) ++ [Beat.mk (checksum d p) true]
        rsp := s.rsp ++ List.replicate (p.length + 2) (Response.mk false 0x00) }

/-- R87, its second sentence: any operations other than `FEND`, accepted or refused, between `FSTART` and `FEND` leave the
frame the one of the bytes pushed, which does not depend on the state it starts from (R88). -/
def Obligations.FrameSurvivesInterleaving : Prop :=
  ∀ (s : State) (d : Byte) (ops : List Instr), s.fph = .idle → .fend ∉ ops → ∃ t,
    Machine.run (ops.length + 2) { s with inputs := presented (.fstart d :: ops ++ [.fend]) } = .next t ∧
    t.tx = s.tx ++ frameBeats d (ops.filterMap fun i => match i with | .fpush b => some b | _ => none) ∧
    t.bcc = checksum d (ops.filterMap fun i => match i with | .fpush b => some b | _ => none) ∧
    t.fph = .idle

/-- R100: the `CLASSIFY` sequence from any state. -/
def Obligations.ClassifySequenceClassifiesTheRead : Prop :=
  ∀ (s : State) (r : List Byte) (rest : List Input),
    Machine.run (r.length + 2) { s with inputs := presented (expandClassify r) ++ rest } = .next
      { s with
        seen := !r.isEmpty
        cls := classifyRead r
        inputs := rest
        rsp := s.rsp ++ List.replicate (r.length + 1) (Response.mk false 0x00) ++
          [Response.mk false ((classifyRead r).code.zeroExtend 8)] }

/-- R103: the class after a `CARM` depends on the bytes given since and on nothing else, whatever other operations stand
between them. -/
def Obligations.WindowsArePure : Prop :=
  ∀ (s : State) (ops : List Instr), .carm ∉ ops → ∃ t,
    Machine.run (ops.length + 1) { s with inputs := presented (.carm :: ops) } = .next t ∧
    t.cls = classifyRead (ops.filterMap fun i => match i with | .cbyte b => some b | _ => none)

/-- R177 (and R98): without a `CARM` a window that has a byte keeps its class over every further byte. -/
def Obligations.StaleWindowKeepsItsClass : Prop :=
  ∀ (s : State) (r : List Byte), s.seen = true → ∃ t,
    Machine.run (r.length + 1) { s with inputs := presented (r.map .cbyte ++ [.crd]) } = .next t ∧
    t.cls = s.cls ∧ t.rsp.getLast? = some (Response.mk false (classData s.cls))

/-! ## The host around the block -/

/-- R133, R132: `decode_status`. The length is tested first; four hex digits give their number, most significant first. -/
def Obligations.StatusDecodes : Prop :=
  (∀ s : List Byte, s.length < 5 → decodeStatus s = .error .malformedStatus) ∧
  (∀ (a b c d e : Byte) (more : List Byte), (hexval a = none ∨ hexval b = none ∨ hexval c = none ∨ hexval d = none) →
    decodeStatus (a :: b :: c :: d :: e :: more) = .error .invalidDigits) ∧
  (∀ (a b c d e : Byte) (more : List Byte) (w x y z : Nat), hexval a = some w → hexval b = some x →
    hexval c = some y → hexval d = some z →
    decodeStatus (a :: b :: c :: d :: e :: more) = .ok (w * 4096 + x * 256 + y * 16 + z) ∧
    w * 4096 + x * 256 + y * 16 + z < 65536)

/-- R134: the hex digits are `0-9`, `A-F`, `a-f` and nothing else. That `a-f` are digits rests on the spec's own choice D28,
whose small letters U12 calls the doubtful band (log 15). -/
def Obligations.HexDigitsAreExactlyThese : Prop :=
  ∀ (b : Byte) (v : Nat), hexval b = some v ↔
    (v ≤ 9 ∧ b.toNat = 0x30 + v) ∨ (10 ≤ v ∧ v ≤ 15 ∧ (b.toNat = 0x41 + (v - 10) ∨ b.toNat = 0x61 + (v - 10)))

/-- R123, R128: one `send` writes the frame, once, as the block built it, over a transport that takes its `n + 7` bytes
whole, be it by that count or past the script's end (log 14). A write not taken whole is left open by R127: there the host
model stops by name (log 10). -/
def Obligations.SendWritesTheFrameOnce : Prop :=
  (∀ (d : Byte) (p : List Byte) (w : World), w.block.inputs = [] → w.block.fph = .idle →
    w.transport.TakesWhole (p.length + 7) →
    ∃ w', send d p w = .ok w' ∧
      w'.transport =
        { w.transport with
          writes := w.transport.writes.tail
          written := w.transport.written ++ [buildFrame d p] } ∧
      w'.block.inputs = [] ∧ w'.block.fph = .idle ∧ w'.block.bcc = checksum d p) ∧
  (∀ (d : Byte) (p : List Byte) (w : World), w.block.inputs = [] → w.block.fph = .idle →
    ¬ w.transport.TakesWhole (p.length + 7) → send d p w = .error .writeNotTakenWhole)

/-- R123, R96: what the host reads from the block is the class of the read's first byte. -/
def Obligations.HostReadsTheClass : Prop :=
  ∀ (r : List Byte) (w : World), w.block.inputs = [] →
    ∃ block, classifyWithBlock r w = .ok (classifyRead r, World.mk block w.transport) ∧
      block.inputs = [] ∧ block.fph = w.block.fph ∧ block.bcc = w.block.bcc ∧ block.tx = w.block.tx

/-- R126, R125, R128: `issue` over indeterminate reads (empty ones, other first bytes, exceptions) ends in `TimedOut` after
exactly `max_retries + 1` reads, having written the frame once and waited as the spec says. The transport takes the frame
whole; reads past the script are empty ones (log 14). -/
def Obligations.IndeterminateReadsTimeOut : Prop :=
  ∀ (prm : HostParameters) (d : Byte) (p : List Byte) (w : World),
    w.block.inputs = [] → w.block.fph = .idle → w.transport.TakesWhole (p.length + 7) →
    (∀ r ∈ w.transport.reads, r = .exception ∨ ∃ s, r = .bytes s ∧ s.length ≤ prm.readMax ∧ classifyRead s = .indet) →
    ∃ w', issue prm d p w = .ok (.timedOut, w') ∧
      w'.transport.readsMade = w.transport.readsMade + prm.maxRetries + 1 ∧
      w'.transport.written = w.transport.written ++ [buildFrame d p] ∧
      w'.transport.waits = w.transport.waits ++ prm.initialSettle :: List.replicate prm.maxRetries prm.pollInterval

/-- R126: a read that is ACK or NAK, number `k` of at most `max_retries + 1`, ends the exchange after exactly `k` reads with
the outcome of its class. The transport takes the frame whole (log 14). -/
def Obligations.DecidingReadEndsTheExchange : Prop :=
  ∀ (prm : HostParameters) (d : Byte) (p : List Byte) (w : World) (before : List ReadResult) (s : List Byte)
    (after : List ReadResult),
    w.block.inputs = [] → w.block.fph = .idle → w.transport.TakesWhole (p.length + 7) →
    w.transport.reads = before ++ .bytes s :: after → before.length ≤ prm.maxRetries →
    (∀ r ∈ before, r = .exception ∨ ∃ q, r = .bytes q ∧ q.length ≤ prm.readMax ∧ classifyRead q = .indet) →
    s.length ≤ prm.readMax → classifyRead s ≠ .indet →
    ∃ w', issue prm d p w = .ok (if classifyRead s = .ack then .acknowledged s else .rejected s, w') ∧
      w'.transport.readsMade = w.transport.readsMade + before.length + 1 ∧ w'.transport.reads = after

/-- R131, R130: the zoom query. After an ACK one more read is made and decoded; a read past the script is an empty one
(log 14), which is `MalformedStatus`. A NAK and a time-out each give their own failure, with no status read. Where the spec
says nothing of the status read (an exception, or more than `max_length` bytes) the host model stops by name (log 10). -/
def Obligations.ZoomQueryOutcomes : Prop :=
  ∀ (prm : HostParameters) (d : Byte) (w : World) (o : ExchangeOutcome) (w' : World),
    issue prm d [0x43, 0x30, 0x30, 0x30, 0x30, 0x30] w = .ok (o, w') →
    (∀ r, o = .rejected r → getZoomPosition prm d w = .ok (.error .protocolRejected, w')) ∧
    (o = .timedOut → getZoomPosition prm d w = .ok (.error .protocolTimeout, w')) ∧
    (∀ r s rest, o = .acknowledged r → w'.transport.reads = .bytes s :: rest → s.length ≤ prm.readMax →
      getZoomPosition prm d w = .ok (decodeStatus s,
        { w' with transport := { w'.transport with reads := rest, readsMade := w'.transport.readsMade + 1 } })) ∧
    (∀ r, o = .acknowledged r → w'.transport.reads = [] →
      getZoomPosition prm d w = .ok (.error .malformedStatus,
        { w' with transport := { w'.transport with readsMade := w'.transport.readsMade + 1 } })) ∧
    (∀ r rest, o = .acknowledged r → w'.transport.reads = .exception :: rest →
      getZoomPosition prm d w = .error .statusReadFailed) ∧
    (∀ r s rest, o = .acknowledged r → w'.transport.reads = .bytes s :: rest → prm.readMax < s.length →
      getZoomPosition prm d w = .error .readTooLong)

/-- R136: however an exchange ends, it made at most `max_retries + 1` reads and its waits add up to at most the settle time
and `max_retries` poll intervals. -/
def Obligations.ExchangeIsBounded : Prop :=
  ∀ (prm : HostParameters) (d : Byte) (p : List Byte) (w : World) (o : ExchangeOutcome) (w' : World),
    issue prm d p w = .ok (o, w') →
    w'.transport.readsMade ≤ w.transport.readsMade + prm.maxRetries + 1 ∧
    w'.transport.waits.sum ≤ w.transport.waits.sum + prm.initialSettle + prm.maxRetries * prm.pollInterval
end

