-- ==== Sys2Proof/Laws/Exchange.lean ====
section
/-! SUPPORT. What the host's transport operations can do, said once (spec/49_host_environment.md R121, R127). -/

namespace Sys2Proof.Machine.Exchange

/-- A write that is taken whole is recorded, and its answer is used up. -/
theorem transportWrite_of_takesWhole {s : List Byte} {t : Transport} (h : t.TakesWhole s.length) :
    transportWrite s t = .ok { t with writes := t.writes.tail, written := t.written ++ [s] } := by
  rcases h with h | ⟨rest, h⟩
  · simp [transportWrite, h]
  · simp [transportWrite, h]

/-- A write that is not taken whole is refused by name (R127, U18). -/
theorem transportWrite_of_not_takesWhole {s : List Byte} {t : Transport} (h : ¬ t.TakesWhole s.length) :
    transportWrite s t = .error .writeNotTakenWhole := by
  cases hw : t.writes with
  | nil => exact absurd (.inl hw) h
  | cons a rest =>
    cases a with
    | failure => simp [transportWrite, hw]
    | count n =>
      have hn : n ≠ s.length := by
        rintro rfl
        exact h (.inr ⟨rest, hw⟩)
      simp [transportWrite, hw, hn]

/-- A read past the script is empty (log 14). -/
theorem transportRead_nil {t : Transport} (max : Nat) (h : t.reads = []) :
    transportRead max t = .ok (.bytes [], { t with readsMade := t.readsMade + 1 }) := by
  simp [transportRead, h]

/-- A read within its `max_length` gives the script's next bytes (R121). -/
theorem transportRead_bytes {t : Transport} {max : Nat} {s : List Byte} {rest : List ReadResult}
    (h : t.reads = .bytes s :: rest) (hl : s.length ≤ max) :
    transportRead max t = .ok (.bytes s, { t with reads := rest, readsMade := t.readsMade + 1 }) := by
  simp [transportRead, h, hl]

/-- A read over its `max_length` is refused by name (log 10). -/
theorem transportRead_tooLong {t : Transport} {max : Nat} {s : List Byte} {rest : List ReadResult}
    (h : t.reads = .bytes s :: rest) (hl : max < s.length) : transportRead max t = .error .readTooLong := by
  simp [transportRead, h, Nat.not_le.mpr hl]

/-- A read that raises an exception (R127). -/
theorem transportRead_exception {t : Transport} (max : Nat) {rest : List ReadResult} (h : t.reads = .exception :: rest) :
    transportRead max t = .ok (.exception, { t with reads := rest, readsMade := t.readsMade + 1 }) := by
  simp [transportRead, h]

end Sys2Proof.Machine.Exchange
end

