-- ==== Sys2Proof/Laws/State.lean ====
section
/-! SUPPORT. The small lemmas of State's updates: one per field per update, so that no later proof unfolds a record update. -/

namespace Sys2Proof.Machine

variable (s : State)

/-! ### `setBcc` -/

@[simp] theorem State.setBcc_bcc (v : Byte) : (s.setBcc v).bcc = v := rfl
@[simp] theorem State.setBcc_fph (v : Byte) : (s.setBcc v).fph = s.fph := rfl
@[simp] theorem State.setBcc_seen (v : Byte) : (s.setBcc v).seen = s.seen := rfl
@[simp] theorem State.setBcc_cls (v : Byte) : (s.setBcc v).cls = s.cls := rfl
@[simp] theorem State.setBcc_eOp (v : Byte) : (s.setBcc v).eOp = s.eOp := rfl
@[simp] theorem State.setBcc_eSeq (v : Byte) : (s.setBcc v).eSeq = s.eSeq := rfl
@[simp] theorem State.setBcc_inputs (v : Byte) : (s.setBcc v).inputs = s.inputs := rfl
@[simp] theorem State.setBcc_rsp (v : Byte) : (s.setBcc v).rsp = s.rsp := rfl
@[simp] theorem State.setBcc_tx (v : Byte) : (s.setBcc v).tx = s.tx := rfl

/-! ### `setPhase` -/

@[simp] theorem State.setPhase_bcc (p : Phase) : (s.setPhase p).bcc = s.bcc := rfl
@[simp] theorem State.setPhase_fph (p : Phase) : (s.setPhase p).fph = p := rfl
@[simp] theorem State.setPhase_seen (p : Phase) : (s.setPhase p).seen = s.seen := rfl
@[simp] theorem State.setPhase_cls (p : Phase) : (s.setPhase p).cls = s.cls := rfl
@[simp] theorem State.setPhase_eOp (p : Phase) : (s.setPhase p).eOp = s.eOp := rfl
@[simp] theorem State.setPhase_eSeq (p : Phase) : (s.setPhase p).eSeq = s.eSeq := rfl
@[simp] theorem State.setPhase_inputs (p : Phase) : (s.setPhase p).inputs = s.inputs := rfl
@[simp] theorem State.setPhase_rsp (p : Phase) : (s.setPhase p).rsp = s.rsp := rfl
@[simp] theorem State.setPhase_tx (p : Phase) : (s.setPhase p).tx = s.tx := rfl

/-! ### `setSeen` -/

@[simp] theorem State.setSeen_bcc (b : Bool) : (s.setSeen b).bcc = s.bcc := rfl
@[simp] theorem State.setSeen_fph (b : Bool) : (s.setSeen b).fph = s.fph := rfl
@[simp] theorem State.setSeen_seen (b : Bool) : (s.setSeen b).seen = b := rfl
@[simp] theorem State.setSeen_cls (b : Bool) : (s.setSeen b).cls = s.cls := rfl
@[simp] theorem State.setSeen_eOp (b : Bool) : (s.setSeen b).eOp = s.eOp := rfl
@[simp] theorem State.setSeen_eSeq (b : Bool) : (s.setSeen b).eSeq = s.eSeq := rfl
@[simp] theorem State.setSeen_inputs (b : Bool) : (s.setSeen b).inputs = s.inputs := rfl
@[simp] theorem State.setSeen_rsp (b : Bool) : (s.setSeen b).rsp = s.rsp := rfl
@[simp] theorem State.setSeen_tx (b : Bool) : (s.setSeen b).tx = s.tx := rfl

/-! ### `setClass` -/

@[simp] theorem State.setClass_bcc (c : ResponseClass) : (s.setClass c).bcc = s.bcc := rfl
@[simp] theorem State.setClass_fph (c : ResponseClass) : (s.setClass c).fph = s.fph := rfl
@[simp] theorem State.setClass_seen (c : ResponseClass) : (s.setClass c).seen = s.seen := rfl
@[simp] theorem State.setClass_cls (c : ResponseClass) : (s.setClass c).cls = c := rfl
@[simp] theorem State.setClass_eOp (c : ResponseClass) : (s.setClass c).eOp = s.eOp := rfl
@[simp] theorem State.setClass_eSeq (c : ResponseClass) : (s.setClass c).eSeq = s.eSeq := rfl
@[simp] theorem State.setClass_inputs (c : ResponseClass) : (s.setClass c).inputs = s.inputs := rfl
@[simp] theorem State.setClass_rsp (c : ResponseClass) : (s.setClass c).rsp = s.rsp := rfl
@[simp] theorem State.setClass_tx (c : ResponseClass) : (s.setClass c).tx = s.tx := rfl

/-! ### `txEmit` -/

@[simp] theorem State.txEmit_bcc (b : Byte) (last : Bool) : (s.txEmit b last).bcc = s.bcc := rfl
@[simp] theorem State.txEmit_fph (b : Byte) (last : Bool) : (s.txEmit b last).fph = s.fph := rfl
@[simp] theorem State.txEmit_seen (b : Byte) (last : Bool) : (s.txEmit b last).seen = s.seen := rfl
@[simp] theorem State.txEmit_cls (b : Byte) (last : Bool) : (s.txEmit b last).cls = s.cls := rfl
@[simp] theorem State.txEmit_eOp (b : Byte) (last : Bool) : (s.txEmit b last).eOp = s.eOp := rfl
@[simp] theorem State.txEmit_eSeq (b : Byte) (last : Bool) : (s.txEmit b last).eSeq = s.eSeq := rfl
@[simp] theorem State.txEmit_inputs (b : Byte) (last : Bool) : (s.txEmit b last).inputs = s.inputs := rfl
@[simp] theorem State.txEmit_rsp (b : Byte) (last : Bool) : (s.txEmit b last).rsp = s.rsp := rfl
@[simp] theorem State.txEmit_tx (b : Byte) (last : Bool) : (s.txEmit b last).tx = s.tx ++ [Beat.mk b last] := rfl

/-! ### `respond` -/

@[simp] theorem State.respond_bcc (f : Bool) (d : Byte) : (s.respond f d).bcc = s.bcc := rfl
@[simp] theorem State.respond_fph (f : Bool) (d : Byte) : (s.respond f d).fph = s.fph := rfl
@[simp] theorem State.respond_seen (f : Bool) (d : Byte) : (s.respond f d).seen = s.seen := rfl
@[simp] theorem State.respond_cls (f : Bool) (d : Byte) : (s.respond f d).cls = s.cls := rfl
@[simp] theorem State.respond_eOp (f : Bool) (d : Byte) : (s.respond f d).eOp = s.eOp := rfl
@[simp] theorem State.respond_eSeq (f : Bool) (d : Byte) : (s.respond f d).eSeq = s.eSeq := rfl
@[simp] theorem State.respond_inputs (f : Bool) (d : Byte) : (s.respond f d).inputs = s.inputs := rfl
@[simp] theorem State.respond_rsp (f : Bool) (d : Byte) : (s.respond f d).rsp = s.rsp ++ [Response.mk f d] := rfl
@[simp] theorem State.respond_tx (f : Bool) (d : Byte) : (s.respond f d).tx = s.tx := rfl

/-! ### `resetEvent` -/

@[simp] theorem State.resetEvent_bcc : (s.resetEvent).bcc = 0x00 := rfl
@[simp] theorem State.resetEvent_fph : (s.resetEvent).fph = .idle := rfl
@[simp] theorem State.resetEvent_seen : (s.resetEvent).seen = false := rfl
@[simp] theorem State.resetEvent_cls : (s.resetEvent).cls = .indet := rfl
@[simp] theorem State.resetEvent_eOp : (s.resetEvent).eOp = false := rfl
@[simp] theorem State.resetEvent_eSeq : (s.resetEvent).eSeq = false := rfl
@[simp] theorem State.resetEvent_inputs : (s.resetEvent).inputs = s.inputs := rfl
@[simp] theorem State.resetEvent_rsp : (s.resetEvent).rsp = s.rsp := rfl
@[simp] theorem State.resetEvent_tx : (s.resetEvent).tx = s.tx := rfl

/-! ### `present` -/

@[simp] theorem State.present_bcc (w : CommandWord) : (s.present w).bcc = s.bcc := rfl
@[simp] theorem State.present_fph (w : CommandWord) : (s.present w).fph = s.fph := rfl
@[simp] theorem State.present_seen (w : CommandWord) : (s.present w).seen = s.seen := rfl
@[simp] theorem State.present_cls (w : CommandWord) : (s.present w).cls = s.cls := rfl
@[simp] theorem State.present_eOp (w : CommandWord) : (s.present w).eOp = s.eOp := rfl
@[simp] theorem State.present_eSeq (w : CommandWord) : (s.present w).eSeq = s.eSeq := rfl
@[simp] theorem State.present_inputs (w : CommandWord) : (s.present w).inputs = .command w :: s.inputs := rfl
@[simp] theorem State.present_rsp (w : CommandWord) : (s.present w).rsp = s.rsp := rfl
@[simp] theorem State.present_tx (w : CommandWord) : (s.present w).tx = s.tx := rfl

/-! ### the sticky bits -/

@[simp] theorem State.setSticky_opFault_bcc : (s.setSticky .opFault).bcc = s.bcc := rfl
@[simp] theorem State.setSticky_seqFault_bcc : (s.setSticky .seqFault).bcc = s.bcc := rfl
@[simp] theorem State.setSticky_opFault_fph : (s.setSticky .opFault).fph = s.fph := rfl
@[simp] theorem State.setSticky_seqFault_fph : (s.setSticky .seqFault).fph = s.fph := rfl
@[simp] theorem State.setSticky_opFault_seen : (s.setSticky .opFault).seen = s.seen := rfl
@[simp] theorem State.setSticky_seqFault_seen : (s.setSticky .seqFault).seen = s.seen := rfl
@[simp] theorem State.setSticky_opFault_cls : (s.setSticky .opFault).cls = s.cls := rfl
@[simp] theorem State.setSticky_seqFault_cls : (s.setSticky .seqFault).cls = s.cls := rfl
@[simp] theorem State.setSticky_opFault_eOp : (s.setSticky .opFault).eOp = true := rfl
@[simp] theorem State.setSticky_seqFault_eOp : (s.setSticky .seqFault).eOp = s.eOp := rfl
@[simp] theorem State.setSticky_opFault_eSeq : (s.setSticky .opFault).eSeq = s.eSeq := rfl
@[simp] theorem State.setSticky_seqFault_eSeq : (s.setSticky .seqFault).eSeq = true := rfl
@[simp] theorem State.setSticky_opFault_inputs : (s.setSticky .opFault).inputs = s.inputs := rfl
@[simp] theorem State.setSticky_seqFault_inputs : (s.setSticky .seqFault).inputs = s.inputs := rfl
@[simp] theorem State.setSticky_opFault_rsp : (s.setSticky .opFault).rsp = s.rsp := rfl
@[simp] theorem State.setSticky_seqFault_rsp : (s.setSticky .seqFault).rsp = s.rsp := rfl
@[simp] theorem State.setSticky_opFault_tx : (s.setSticky .opFault).tx = s.tx := rfl
@[simp] theorem State.setSticky_seqFault_tx : (s.setSticky .seqFault).tx = s.tx := rfl

end Sys2Proof.Machine
end

