-- ==== Sys2Proof/Laws/Ops.lean ====
section
/-! SUPPORT. What each shared operation can do, said once (spec/00_scope.md R8, spec/60_exceptions.md R151, R153,
spec/42_cls_classifier.md R98, spec/10_state.md R22), and the inversion of the step. -/

namespace Sys2Proof.Machine

/-- Raising `OpFault`, whole (R153). -/
theorem State.raise_opFault (s : State) :
    s.raise .opFault = { s with eOp := true, rsp := s.rsp ++ [Response.mk true 0x01] } := rfl

/-- Raising `SeqFault`, whole (R153). -/
theorem State.raise_seqFault (s : State) :
    s.raise .seqFault = { s with eSeq := true, rsp := s.rsp ++ [Response.mk true 0x02] } := rfl

/-- The phase check passes (R151). -/
theorem State.inPhase_same {p : Phase} {run : State → State} {s : State} (h : s.fph = p) :
    s.inPhase p run = run s := if_pos h

/-- The phase check fails: `SeqFault` (R151). -/
theorem State.inPhase_other {p : Phase} {run : State → State} {s : State} (h : s.fph ≠ p) :
    s.inPhase p run = s.raise .seqFault := if_neg h

/-- What the phase check can answer (R151). -/
theorem State.inPhase_cases (p : Phase) (run : State → State) (s : State) :
    (s.fph = p ∧ s.inPhase p run = run s) ∨ (s.fph ≠ p ∧ s.inPhase p run = s.raise .seqFault) := by
  by_cases h : s.fph = p
  · exact .inl ⟨h, State.inPhase_same h⟩
  · exact .inr ⟨h, State.inPhase_other h⟩

/-- A phase that is not one is the other (R12). -/
theorem Phase.ne_idle {p : Phase} : p ≠ .idle ↔ p = .opened := by cases p <;> decide

/-- A phase that is not one is the other (R12). -/
theorem Phase.ne_opened {p : Phase} : p ≠ .opened ↔ p = .idle := by cases p <;> decide

/-- The first byte of a window (R98). -/
theorem State.takeByte_first {s : State} (b : Byte) (h : s.seen = false) :
    s.takeByte b = { s with cls := classify b, seen := true } := if_pos h

/-- A later byte of a window (R98). -/
theorem State.takeByte_later {s : State} (b : Byte) (h : s.seen = true) : s.takeByte b = s :=
  if_neg (by rw [h]; decide)

/-- The input taken is the next one presented, and nothing else changes (R22). -/
theorem State.takeInput_cons {s : State} {i : Input} {rest : List Input} (h : s.inputs = i :: rest) :
    s.takeInput = some (i, { s with inputs := rest }) := by
  simp [State.takeInput, h]

/-- Nothing presented, nothing taken. -/
theorem State.takeInput_nil {s : State} (h : s.inputs = []) : s.takeInput = none := by
  simp [State.takeInput, h]

/-- Everything a step that answers a next state can have done: waited, reset, or run the next command. -/
theorem step_cases {s t : State} (h : step s = .next t) :
    (s.inputs = [] ∧ t = s) ∨
    (∃ rest, s.inputs = .reset :: rest ∧ t = State.resetEvent { s with inputs := rest }) ∨
    (∃ w rest, s.inputs = .command w :: rest ∧ exec (decode w) { s with inputs := rest } = .next t) := by
  cases hi : s.inputs with
  | nil =>
    simp only [step, State.takeInput_nil hi] at h
    exact .inl ⟨rfl, (Host.Outcome.next.inj h).symm⟩
  | cons i rest =>
    cases i with
    | reset =>
      simp only [step, State.takeInput_cons hi] at h
      exact .inr (.inl ⟨rest, rfl, (Host.Outcome.next.inj h).symm⟩)
    | command w =>
      simp only [step, State.takeInput_cons hi] at h
      exact .inr (.inr ⟨w, rest, rfl, h⟩)

end Sys2Proof.Machine
end

