-- ==== Sys2Proof/Laws/Exec.lean ====
section
/-! SUPPORT. What each meaning answers, as one record, for the proofs to cite instead of unfolding it. The accepted and the
refused case of a phase-checked operation are two lemmas. -/

namespace Sys2Proof.Machine

/-- A refused operation (R153). -/
theorem execXclr_opened {s : State} (h : s.fph = .opened) : execXclr s = .next (s.raise .seqFault) := by
  rw [execXclr, State.inPhase_other (by rw [h]; decide)]

/-- A refused operation (R153). -/
theorem execXabs_opened {s : State} (b : Byte) (h : s.fph = .opened) :
    execXabs b s = .next (s.raise .seqFault) := by
  rw [execXabs, State.inPhase_other (by rw [h]; decide)]

/-- A refused operation (R153). -/
theorem execFstart_opened {s : State} (d : Byte) (h : s.fph = .opened) :
    execFstart d s = .next (s.raise .seqFault) := by
  rw [execFstart, State.inPhase_other (by rw [h]; decide)]

/-- A refused operation (R153). -/
theorem execFpush_idle {s : State} (b : Byte) (h : s.fph = .idle) :
    execFpush b s = .next (s.raise .seqFault) := by
  rw [execFpush, State.inPhase_other (by rw [h]; decide)]

/-- A refused operation (R153). -/
theorem execFend_idle {s : State} (h : s.fph = .idle) : execFend s = .next (s.raise .seqFault) := by
  rw [execFend, State.inPhase_other (by rw [h]; decide)]

/-- Every meaning answers a next state (R183), leaves what is still to come alone, and appends one response and some beats
(R20, R21). -/
theorem exec_appends (i : Instr) (s : State) :
    ∃ t, exec i s = .next t ∧ t.inputs = s.inputs ∧ (∃ r, t.rsp = s.rsp ++ [r]) ∧ ∃ bs, t.tx = s.tx ++ bs := by
  have refusedCase : ∀ f, (s.raise f).inputs = s.inputs ∧ (∃ r, (s.raise f).rsp = s.rsp ++ [r]) ∧
      ∃ bs, (s.raise f).tx = s.tx ++ bs := by
    intro f
    cases f <;> exact ⟨rfl, ⟨_, rfl⟩, [], by simp [State.raise]⟩
  have phaseCase : ∀ p run, (s.fph = p → (run s).inputs = s.inputs ∧ (∃ r, (run s).rsp = s.rsp ++ [r]) ∧
      ∃ bs, (run s).tx = s.tx ++ bs) → (s.inPhase p run).inputs = s.inputs ∧
      (∃ r, (s.inPhase p run).rsp = s.rsp ++ [r]) ∧ ∃ bs, (s.inPhase p run).tx = s.tx ++ bs := by
    intro p run h
    rcases State.inPhase_cases p run s with ⟨hp, he⟩ | ⟨_, he⟩ <;> rw [he]
    · exact h hp
    · exact refusedCase _
  cases i with
  | nop => exact ⟨_, rfl, rfl, ⟨_, rfl⟩, [], by simp⟩
  | xclr => exact ⟨_, rfl, phaseCase _ _ fun _ => ⟨rfl, ⟨_, rfl⟩, [], by simp⟩⟩
  | xabs b => exact ⟨_, rfl, phaseCase _ _ fun _ => ⟨rfl, ⟨_, rfl⟩, [], by simp⟩⟩
  | xrd => exact ⟨_, rfl, rfl, ⟨_, rfl⟩, [], by simp⟩
  | fstart d =>
    exact ⟨_, rfl, phaseCase _ _ fun _ => ⟨rfl, ⟨_, rfl⟩, plainBeats (headerBytes d), by
      simp [plainBeats, headerBytes]⟩⟩
  | fpush b => exact ⟨_, rfl, phaseCase _ _ fun _ => ⟨rfl, ⟨_, rfl⟩, _, rfl⟩⟩
  | fend =>
    exact ⟨_, rfl, phaseCase _ _ fun _ => ⟨rfl, ⟨_, rfl⟩,
      [Beat.mk constants.etx false, Beat.mk (s.bcc ^^^ constants.etx) true], by simp⟩⟩
  | carm => exact ⟨_, rfl, rfl, ⟨_, rfl⟩, [], by simp⟩
  | cbyte b =>
    refine ⟨_, rfl, ?_⟩
    cases h : s.seen
    · rw [State.takeByte_first b h]; exact ⟨rfl, ⟨_, rfl⟩, [], by simp⟩
    · rw [State.takeByte_later b h]; exact ⟨rfl, ⟨_, rfl⟩, [], by simp⟩
  | crd => exact ⟨_, rfl, rfl, ⟨_, rfl⟩, [], by simp⟩
  | srd => exact ⟨_, rfl, rfl, ⟨_, rfl⟩, [], by simp⟩
  | reservedB => exact ⟨_, rfl, refusedCase _⟩
  | reservedC => exact ⟨_, rfl, refusedCase _⟩
  | reservedD => exact ⟨_, rfl, refusedCase _⟩
  | reservedE => exact ⟨_, rfl, refusedCase _⟩
  | reservedF => exact ⟨_, rfl, refusedCase _⟩

end Sys2Proof.Machine
end

