-- ==== Sys2Proof/Laws/Functions.lean ====
section
/-! SUPPORT. The small lemmas of the pure functions (spec/40_xcg_checksum.md R70, spec/41_frm_framer.md R80): how `xor8`
and the bodies grow by one byte. -/

namespace Sys2Proof.Machine

/-- `xor8` grows by one byte at the end (R70). -/
theorem xor8_snoc (s : List Byte) (b : Byte) : xor8 (s ++ [b]) = xor8 s ^^^ b := by
  simp [xor8, List.foldl_append]

/-- The running parity after the header alone (R83). -/
theorem xor8_openBody_nil (d : Byte) :
    xor8 (openBody d []) = d ^^^ constants.mode ^^^ constants.sid ^^^ constants.stx := by
  simp [xor8, openBody]

/-- The covered bytes grow by one payload byte (R84). -/
theorem openBody_snoc (d : Byte) (p : List Byte) (b : Byte) : openBody d (p ++ [b]) = openBody d p ++ [b] := by
  simp [openBody]

/-- The checksum is the open parity with `ETX` absorbed (R85). -/
theorem checksum_eq (d : Byte) (p : List Byte) : checksum d p = xor8 (openBody d p) ^^^ constants.etx :=
  xor8_snoc _ _

/-- Unmarked beats of joined bytes. -/
theorem plainBeats_append (a b : List Byte) : plainBeats (a ++ b) = plainBeats a ++ plainBeats b :=
  List.map_append

/-- The bytes of a frame's beats are the frame. -/
theorem frameBeats_bytes (d : Byte) (p : List Byte) : (frameBeats d p).map Beat.byte = buildFrame d p := by
  simp [frameBeats, buildFrame, plainBeats, Function.comp_def]

end Sys2Proof.Machine
end

