-- ==== Sys2Proof/Laws/PerInstr.lean ====
section
/-! SUPPORT. The family `SourceForm`, one lemma per constructor: the line an operation is written as is well formed and
assembles to the operation's encoding (spec/30_encoding.md R58). -/

namespace Sys2Proof.Laws.SourceForm

open Sys2Proof.Machine

/-- What the family says of one operation. -/
def Statement (i : Instr) : Prop := i.WellFormed = true ∧ assemble i.source = some (encode i)

/-- An operand line of a byte is well formed. -/
theorem operandLine_wellFormed (m : Mnemonic) (b : Byte) (h : m.takesOperand = true) :
    (SourceLine.operation m (some b.toNat)).WellFormed = true := by
  simp [SourceLine.WellFormed, SourceLine.operandWherePermitted, SourceLine.operandFits, SourceLine.rawFits, h, b.isLt]

/-- An operand line of a byte assembles to its operation's word. -/
theorem operandLine_assembles (m : Mnemonic) (b : Byte) (h : m.takesOperand = true) :
    assemble (.operation m (some b.toNat)) = some (encode (mnemonicInstr m b)) := by
  simp [assemble, operandLine_wellFormed m b h]

theorem nop : Statement .nop := ⟨by decide, by decide⟩
theorem xclr : Statement .xclr := ⟨by decide, by decide⟩
theorem xabs (b : Byte) : Statement (.xabs b) :=
  ⟨operandLine_wellFormed .xabs b rfl, operandLine_assembles .xabs b rfl⟩
theorem xrd : Statement .xrd := ⟨by decide, by decide⟩
theorem fstart (d : Byte) : Statement (.fstart d) :=
  ⟨operandLine_wellFormed .fstart d rfl, operandLine_assembles .fstart d rfl⟩
theorem fpush (b : Byte) : Statement (.fpush b) :=
  ⟨operandLine_wellFormed .fpush b rfl, operandLine_assembles .fpush b rfl⟩
theorem fend : Statement .fend := ⟨by decide, by decide⟩
theorem carm : Statement .carm := ⟨by decide, by decide⟩
theorem cbyte (b : Byte) : Statement (.cbyte b) :=
  ⟨operandLine_wellFormed .cbyte b rfl, operandLine_assembles .cbyte b rfl⟩
theorem crd : Statement .crd := ⟨by decide, by decide⟩
theorem srd : Statement .srd := ⟨by decide, by decide⟩
theorem reservedB : Statement .reservedB := ⟨by decide, by decide⟩
theorem reservedC : Statement .reservedC := ⟨by decide, by decide⟩
theorem reservedD : Statement .reservedD := ⟨by decide, by decide⟩
theorem reservedE : Statement .reservedE := ⟨by decide, by decide⟩
theorem reservedF : Statement .reservedF := ⟨by decide, by decide⟩

end Sys2Proof.Laws.SourceForm
end

