-- ==== Sys2Proof/Laws/Run.lean ====
section
/-! SUPPORT. Running the block: one step at a time, and a meaning does not look at what is still to come
(spec/20_memory.md R36). -/

namespace Sys2Proof.Machine

/-- A run begins with a step. -/
theorem run_succ_of_step {s t : State} (n : Nat) (h : step s = .next t) : run (n + 1) s = run n t := by
  rw [run, h]

/-- A run of no steps. -/
@[simp] theorem run_zero (s : State) : run 0 s = .next s := rfl

/-- A run of any machine of the host's interface that begins with a step to a next state. -/
theorem core_run_succ (M : Host.Core) (n : Nat) {s t : M.State} (h : M.step s = .next t) :
    M.run (n + 1) s = M.run n t := by
  rw [Host.Core.run, h]

/-- Every step answers a next state: the block never stops (R183). -/
theorem step_completes (s : State) : ∃ t, step s = .next t := by
  cases hi : s.inputs with
  | nil => exact ⟨s, by simp only [step, State.takeInput_nil hi]; rfl⟩
  | cons i rest =>
    cases i with
    | reset => exact ⟨_, by simp only [step, State.takeInput_cons hi]; rfl⟩
    | command w =>
      obtain ⟨t, ht, _⟩ := exec_appends (decode w) { s with inputs := rest }
      exact ⟨t, by simp only [step, State.takeInput_cons hi]; exact ht⟩

/-- The runs are those of the host's interface. -/
theorem core_run_eq_run : ∀ (n : Nat) (s : State), Host.Core.run Sys2Proof.core n s = run n s
  | 0, _ => rfl
  | n + 1, s => by
    obtain ⟨t, h⟩ := step_completes s
    rw [run_succ_of_step n h]
    exact (core_run_succ Sys2Proof.core n h).trans (core_run_eq_run n t)

/-- What a meaning does to the rest of the state does not depend on what is still to come (R36). -/
theorem exec_ignores_inputs (i : Instr) {s t : State} (later : List Input) (h : exec i s = .next t) :
    exec i { s with inputs := later } = .next { t with inputs := later } := by
  have phaseCase : ∀ (p : Phase) (run : State → State),
      (∀ u : State, run { u with inputs := later } = { run u with inputs := later }) →
      State.inPhase p run { s with inputs := later } = { State.inPhase p run s with inputs := later } := by
    intro p run hr
    rcases State.inPhase_cases p run s with ⟨hp, he⟩ | ⟨hp, he⟩
    · rw [he, ← hr]; exact State.inPhase_same (s := { s with inputs := later }) hp
    · rw [he]; exact State.inPhase_other (s := { s with inputs := later }) hp
  cases i with
  | xclr => cases h; exact congrArg _ (phaseCase _ _ fun _ => rfl)
  | xabs b => cases h; exact congrArg _ (phaseCase _ _ fun _ => rfl)
  | fstart d => cases h; exact congrArg _ (phaseCase _ _ fun _ => rfl)
  | fpush b => cases h; exact congrArg _ (phaseCase _ _ fun _ => rfl)
  | fend => cases h; exact congrArg _ (phaseCase _ _ fun _ => rfl)
  | cbyte b =>
    cases h
    have byteCase : State.takeByte b { s with inputs := later } = { s.takeByte b with inputs := later } := by
      rcases Bool.eq_false_or_eq_true s.seen with hs | hs
      · rw [State.takeByte_later (s := s) b hs]
        exact State.takeByte_later (s := { s with inputs := later }) b hs
      · rw [State.takeByte_first (s := s) b hs]
        exact State.takeByte_first (s := { s with inputs := later }) b hs
    exact congrArg (fun u : State => Host.Outcome.next (u.respond false 0x00)) byteCase
  | nop => cases h; rfl
  | xrd => cases h; rfl
  | carm => cases h; rfl
  | crd => cases h; rfl
  | srd => cases h; rfl
  | reservedB => cases h; rfl
  | reservedC => cases h; rfl
  | reservedD => cases h; rfl
  | reservedE => cases h; rfl
  | reservedF => cases h; rfl

end Sys2Proof.Machine
end

