-- ==== Sys2Proof/Tests/Slice0.lean ====
section
/-! SUPPORT. The model's own tests. Every expected value is the spec's: the example of an operation's rule, a vector of
spec/95_test_vectors.md, or a field of spec/30_encoding.md. The last part holds a witness for each statement that has
hypotheses. -/

namespace Sys2Proof.Tests

open Sys2Proof.Machine Sys2Proof.Machine.Exchange

/-! ## Small states -/

/-- Idle, `BCC` as given, the rest as after reset. -/
def idleWith (v : Byte) : State := { State.reset with bcc := v }

/-- A frame for destination `31` open after its header, as R83's example leaves it. -/
def openFrame : State :=
  { State.reset with
    bcc := 0x92
    fph := .opened
    tx := plainBeats [0x01, 0x31, 0x81, 0x20, 0x02] }

/-- A window whose first byte was `06` (R98's example). -/
def ackWindow : State := { State.reset with seen := true, cls := .ack }

/-- The next state of an outcome, or the given one where there is none. -/
def nextOr (s : State) : Host.Outcome State Fault Refusal → State
  | .next t => t
  | .fault _ => s
  | .refused _ => s

/-- The state after one operation. -/
def after (i : Instr) (s : State) : State := nextOr s (exec i s)

/-! ## Words written out bit by bit from R45, R46, one for every constructor -/

theorem test_decode_nop : decode 0b000011111111 = .nop := by decide
theorem test_decode_xclr : decode 0b000100000000 = .xclr := by decide
theorem test_decode_xabs : decode 0b001010000001 = .xabs 0x81 := by decide
theorem test_decode_xrd : decode 0b001100000000 = .xrd := by decide
theorem test_decode_fstart : decode 0b010000110001 = .fstart 0x31 := by decide
theorem test_decode_fpush : decode 0b010101000011 = .fpush 0x43 := by decide
theorem test_decode_fend : decode 0b011000000000 = .fend := by decide
theorem test_decode_carm : decode 0b011100000000 = .carm := by decide
theorem test_decode_cbyte : decode 0b100000000110 = .cbyte 0x06 := by decide
theorem test_decode_crd : decode 0b100100000000 = .crd := by decide
theorem test_decode_srd : decode 0b101000000000 = .srd := by decide
theorem test_decode_reservedB : decode 0b101100000000 = .reservedB := by decide
theorem test_decode_reservedC : decode 0b110000110111 = .reservedC := by decide
theorem test_decode_reservedD : decode 0b110100000000 = .reservedD := by decide
theorem test_decode_reservedE : decode 0b111000000000 = .reservedE := by decide
theorem test_decode_reservedF : decode 0b111111111111 = .reservedF := by decide

/-- R58: `FSTART 31` is `0x431`, `FEND` is `0x600`. -/
theorem test_encode_examples : encode (.fstart 0x31) = 0x431 ∧ encode .fend = 0x600 := by decide

/-- The table's numbering of a word, and a number that is no command word (log 9). -/
theorem test_decodeTableWord : decodeTableWord 16 0x543 = some (.fpush 0x43) ∧ decodeTableWord 16 0x1543 = none := by
  decide

/-- The word placed is the next one run (log 3): P4's `0xB00` from reset. -/
theorem test_withFetchWord_runs :
    step (State.reset.withFetchWord 16 0xB00) =
      .next { State.reset with eOp := true, rsp := [Response.mk true 0x01] } := by rfl

/-! ## Source lines: a term each check of WellFormed refuses (R58) -/

theorem test_line_missing_operand : (SourceLine.operation .fstart none).WellFormed = false := by decide
theorem test_line_operand_not_taken : (SourceLine.operation .fend (some 0)).WellFormed = false := by decide
theorem test_line_operand_too_wide : (SourceLine.operation .xabs (some 256)).WellFormed = false := by decide
theorem test_line_raw_too_wide : (SourceLine.raw 4096).WellFormed = false := by decide

/-- R58's own lines. -/
theorem test_assemble_text :
    (parseLine ['F', 'S', 'T', 'A', 'R', 'T', ' ', '3', '1']).bind assemble = some 0x431 ∧
    (parseLine ['F', 'E', 'N', 'D']).bind assemble = some 0x600 ∧
    (parseLine ['0', 'x', 'B', '0', '0']).bind assemble = some 0xB00 := by decide

/-- An operation without an operand takes none, and one with an operand needs it (R58). -/
theorem test_assemble_refuses :
    parseLine ['F', 'E', 'N', 'D', ' ', '0', '0'] = none ∧ parseLine ['X', 'A', 'B', 'S'] = none := by decide

/-! ## One operation each: the examples of the operation rules and of DV6, DV7, DV11, DV12 -/

/-- R110's example. -/
theorem test_nop : exec .nop openFrame = .next { openFrame with rsp := [Response.mk false 0x00] } := by rfl

/-- R74's example and DV6: `BCC` from `5A`. -/
theorem test_xclr : (after .xclr (idleWith 0x5A)).bcc = 0x00 := by decide

/-- DV6: `XCLR` in an open frame. -/
theorem test_xclr_refused :
    after .xclr openFrame = { openFrame with eSeq := true, rsp := [Response.mk true 0x02] } := by decide

/-- R75's example. -/
theorem test_xabs : (after (.xabs 0x81) (idleWith 0x31)).bcc = 0xB0 := by decide

/-- DV6: `XABS FF` in an open frame. -/
theorem test_xabs_refused : (after (.xabs 0xFF) openFrame).bcc = 0x92 ∧ (after (.xabs 0xFF) openFrame).eSeq = true := by
  decide

/-- DV6: `XRD` in an open frame responds `0x092`. -/
theorem test_xrd : (after .xrd openFrame).rsp.map Response.word = [0x092] := by decide

/-- R83's example, whole. -/
theorem test_fstart : after (.fstart 0x31) State.reset = { openFrame with rsp := [Response.mk false 0x00] } := by decide

/-- DV7: `FSTART 32` in an open frame. -/
theorem test_fstart_refused :
    (after (.fstart 0x32) openFrame).tx = openFrame.tx ∧ (after (.fstart 0x32) openFrame).fph = .opened := by decide

/-- R84's example. -/
theorem test_fpush :
    (after (.fpush 0x43) openFrame).bcc = 0xD1 ∧
    (after (.fpush 0x43) openFrame).tx = openFrame.tx ++ [Beat.mk 0x43 false] := by decide

/-- DV7: `FPUSH 55` from reset: no beat, `STAT = 02`. -/
theorem test_fpush_refused :
    (after (.fpush 0x55) State.reset).tx = [] ∧ stat (after (.fpush 0x55) State.reset) = 0x02 := by decide

/-- R85's example: `BCC = E1` gives `03 E2*`, `BCC = E2`, idle. -/
theorem test_fend :
    (after .fend { openFrame with bcc := 0xE1 }).tx = openFrame.tx ++ [Beat.mk 0x03 false, Beat.mk 0xE2 true] ∧
    (after .fend { openFrame with bcc := 0xE1 }).bcc = 0xE2 ∧
    (after .fend { openFrame with bcc := 0xE1 }).fph = .idle := by decide

/-- DV7: `FEND` from idle: no beat, response `0x102`. -/
theorem test_fend_refused :
    (after .fend State.reset).tx = [] ∧ (after .fend State.reset).rsp.map Response.word = [0x102] := by decide

/-- R97's example. -/
theorem test_carm : (after .carm ackWindow).seen = false ∧ (after .carm ackWindow).cls = .indet := by decide

/-- R98's example: the first byte. -/
theorem test_cbyte_first :
    (after (.cbyte 0x06) State.reset).cls = .ack ∧ (after (.cbyte 0x06) State.reset).seen = true := by decide

/-- R98's example: `15` after `06` changes nothing. -/
theorem test_cbyte_later : (after (.cbyte 0x15) ackWindow).cls = .ack := by decide

/-- DV11: `CRD` responds `0x001`; R99's example responds `0x002`. -/
theorem test_crd :
    (after .crd ackWindow).rsp.map Response.word = [0x001] ∧
    (after .crd { ackWindow with cls := .nak }).rsp.map Response.word = [0x002] := by decide

/-- R111's example: `0x007`. -/
theorem test_srd :
    (after .srd { openFrame with eOp := true, eSeq := true }).rsp.map Response.word = [0x007] := by decide

/-- DV8 (b): `STAT = 2C` with `CLASS = NAK`, `SEEN` and `FOPEN`; R111: the largest value is `2F`. -/
theorem test_stat :
    stat { openFrame with seen := true, cls := .nak } = 0x2C ∧
    stat { openFrame with seen := true, cls := .nak, eOp := true, eSeq := true } = 0x2F := by decide

/-- R112's example, by a code in the middle of the reserved range: an open frame stays open. -/
theorem test_reserved :
    after .reservedD openFrame = { openFrame with eOp := true, rsp := [Response.mk true 0x01] } := by decide

/-- R171: a reset in an open frame keeps the truncated frame in `TX` and clears the registers. -/
theorem test_reset_event :
    nextOr State.reset (step { openFrame with eSeq := true, inputs := [.reset, .command 0x300] }) =
      { State.reset with tx := plainBeats [0x01, 0x31, 0x81, 0x20, 0x02], inputs := [.command 0x300] } := by decide

/-! ## The functions: DV1 to DV5, DV9, DV10 -/

/-- DV1. -/
theorem test_xor8 :
    xor8 [] = 0x00 ∧ xor8 [0xFF, 0xFF] = 0x00 ∧ xor8 [0x12, 0x34, 0x56, 0x78] = 0x08 ∧
    xor8 [0x31, 0x81, 0x20, 0x02, 0x03] = 0x91 := by decide

/-- DV3. -/
theorem test_buildFrame_zoom :
    buildFrame 0x31 zoomPayload =
      [0x01, 0x31, 0x81, 0x20, 0x02, 0x43, 0x30, 0x30, 0x30, 0x30, 0x30, 0x03, 0xE2] := by decide

/-- DV4: the empty payload, checksum zero, a payload byte equal to `ETX`, and ACK and NAK as data. -/
theorem test_buildFrame_corners :
    buildFrame 0xA0 [] = [0x01, 0xA0, 0x81, 0x20, 0x02, 0x03, 0x00] ∧
    buildFrame 0x31 [0x03] = [0x01, 0x31, 0x81, 0x20, 0x02, 0x03, 0x03, 0x92] ∧
    buildFrame 0x06 [0x06, 0x15] = [0x01, 0x06, 0x81, 0x20, 0x02, 0x06, 0x15, 0x03, 0xB5] := by decide

/-- DV9: the codes, their neighbours and bit-7 variants. -/
theorem test_classify :
    classify 0x06 = .ack ∧ classify 0x15 = .nak ∧ classify 0x07 = .indet ∧ classify 0x86 = .indet ∧
    classify 0x95 = .indet := by decide

/-- DV10. -/
theorem test_classifyRead :
    classifyRead [] = .indet ∧ classifyRead [0x06, 0x15] = .ack ∧ classifyRead [0x15, 0x06] = .nak ∧
    classifyRead [0x41, 0x06] = .indet := by decide

/-! ## The host: V5, V6, DV13, DV14 -/

/-- An Except compared by its parts. -/
def okIs {ε α : Type} [DecidableEq α] (x : Except ε α) (v : α) : Bool :=
  match x with
  | .ok a => decide (a = v)
  | .error _ => false

/-- The failure of an Except compared by its parts. -/
def errorIs {ε α : Type} [DecidableEq ε] (x : Except ε α) (v : ε) : Bool :=
  match x with
  | .ok _ => false
  | .error e => decide (e = v)

/-- DV14: `"01F4X"`, `"FFFF" 0D`, lower case, too short, `"01FGX"`. -/
theorem test_decodeStatus :
    okIs (decodeStatus [0x30, 0x31, 0x46, 0x34, 0x58]) 500 = true ∧
    okIs (decodeStatus [0x46, 0x46, 0x46, 0x46, 0x0D]) 65535 = true ∧
    okIs (decodeStatus [0x66, 0x66, 0x66, 0x66, 0x30]) 65535 = true ∧
    errorIs (decodeStatus [0x30, 0x31, 0x46, 0x34]) .malformedStatus = true ∧
    errorIs (decodeStatus [0x30, 0x31, 0x46, 0x47, 0x58]) .invalidDigits = true := by decide

/-- A host at session start with a transport that gives these reads. -/
def worldWith (reads : List ReadResult) : World := World.mk State.reset (Transport.fresh reads)

/-- The host's defaults with room for the status read (D29). -/
def parameters : HostParameters := { readMax := 8 }

/-- The outcome and number of reads of an exchange with an empty payload. -/
def outcomeOf (prm : HostParameters) (reads : List ReadResult) : Option (ExchangeOutcome × Nat) :=
  match issue prm 0x31 [] (worldWith reads) with
  | .ok (o, w) => some (o, w.transport.readsMade)
  | .error _ => none

/-- DV13: all reads empty, `max_retries = 0`: timed out after one read. -/
theorem test_issue_times_out : outcomeOf { parameters with maxRetries := 0 } [] = some (.timedOut, 1) := by decide

/-- DV13: an empty read, then `06 15`: acknowledged on the second read. -/
theorem test_issue_acknowledged :
    outcomeOf { parameters with maxRetries := 1 } [.bytes [], .bytes [0x06, 0x15]] =
      some (.acknowledged [0x06, 0x15], 2) := by decide

/-! ## Witnesses: a state and operands that meet each statement's hypotheses -/

theorem witness_StepRunsPresentedCommand :
    { State.reset with inputs := [.command 0x431] }.inputs = .command 0x431 :: [] ∧ decode 0x431 = .fstart 0x31 := by decide
theorem witness_ResetEventLoadsEveryRegister :
    { openFrame with inputs := [.reset] }.inputs = .reset :: [] := by decide
theorem witness_ArgumentUsedAsItStandsOrIgnored : (0xF : BitVec 4) ∉ [0x2, 0x4, 0x5, 0x8] := by decide
theorem witness_idle_phase : (idleWith 0xFF).fph = .idle := by decide
theorem witness_open_phase : openFrame.fph = .opened := by decide
theorem witness_empty_window : State.reset.seen = false := by decide
theorem witness_taken_window : ackWindow.seen = true := by decide
theorem witness_classes :
    State.reset.cls = .indet ∧ ackWindow.cls = .ack ∧ { ackWindow with cls := .nak }.cls = .nak := by decide
theorem witness_ReservedCodesTakeOpFault :
    Instr.reservedB ∈ [Instr.reservedB, .reservedC, .reservedD, .reservedE, .reservedF] ∧
    Instr.reservedF ∈ [Instr.reservedB, .reservedC, .reservedD, .reservedE, .reservedF] ∧
    0xB ≤ (0xB : BitVec 4).toNat ∧ 0xB ≤ (0xF : BitVec 4).toNat := by decide
/-- A next state in which `SeqFault` was raised, and one in which it was not. -/
theorem witness_SeqFaultOnExactlyFivePairs :
    exec .fend State.reset = .next { State.reset with eSeq := true, rsp := [Response.mk true 0x02] } ∧
    exec .xrd State.reset = .next { State.reset with rsp := [Response.mk false 0x00] } := ⟨rfl, rfl⟩
/-- The first reserved code, and the last defined one. -/
theorem witness_OpFaultOnExactlyReservedCodes :
    exec (decode 0xB00) State.reset = .next { State.reset with eOp := true, rsp := [Response.mk true 0x01] } ∧
    exec (decode 0xAFF) State.reset = .next { State.reset with rsp := [Response.mk false 0x00] } := ⟨rfl, rfl⟩
/-- Both cause codes: a next state whose response has the fault bit. -/
theorem witness_FaultEntryChangesNothingElse :
    (exec .reservedE openFrame = .next { openFrame with eOp := true, rsp := [Response.mk true 0x01] } ∧
      [Response.mk true 0x01] = openFrame.rsp ++ [Response.mk true 0x01]) ∧
    (exec .xclr openFrame = .next { openFrame with eSeq := true, rsp := [Response.mk true 0x02] } ∧
      [Response.mk true 0x02] = openFrame.rsp ++ [Response.mk true 0x02]) := ⟨⟨rfl, rfl⟩, rfl, rfl⟩
/-- A step that clears each sticky bit. -/
theorem witness_StickyBitsSetExactlyAndClearedByReset :
    step { State.reset with eOp := true, inputs := [.reset] } = .next State.reset ∧
    step { State.reset with eSeq := true, inputs := [.reset] } = .next State.reset ∧
    State.reset.eOp = false ∧ State.reset.eSeq = false := ⟨rfl, rfl, rfl, rfl⟩
/-- A next state in which each register differs, one for each clause that names who may write it. -/
theorem witness_WhatEachOperationReaches :
    (after (.fpush 0x43) openFrame).bcc ≠ openFrame.bcc ∧ (after .fend openFrame).fph ≠ openFrame.fph ∧
    (after .carm ackWindow).seen ≠ ackWindow.seen ∧ (after .carm ackWindow).cls ≠ ackWindow.cls ∧
    (after .reservedB openFrame).eOp ≠ openFrame.eOp ∧ (after .xclr openFrame).eSeq ≠ openFrame.eSeq := by decide
/-- The state each of those is a next state of. -/
theorem witness_WhatEachOperationReaches_next :
    exec (.fpush 0x43) openFrame = .next (after (.fpush 0x43) openFrame) ∧
    exec .fend openFrame = .next (after .fend openFrame) ∧ exec .carm ackWindow = .next (after .carm ackWindow) ∧
    exec .reservedB openFrame = .next (after .reservedB openFrame) ∧
    exec .xclr openFrame = .next (after .xclr openFrame) :=
  ⟨rfl, rfl, rfl, rfl, rfl⟩
theorem witness_ClassifierAndFramerAreIndependent :
    Instr.crd = .carm ∨ (∃ b, Instr.crd = .cbyte b) ∨ Instr.crd = .crd := .inr (.inr rfl)
theorem witness_ClassifierAndFramerAreIndependent_framer :
    Instr.fend = .xclr ∨ (∃ b, Instr.fend = .xabs b) ∨ Instr.fend = .xrd ∨ (∃ d, Instr.fend = .fstart d) ∨
      (∃ b, Instr.fend = .fpush b) ∨ Instr.fend = .fend := .inr (.inr (.inr (.inr (.inr rfl))))
/-- The window invariant where its premise holds, and a step from there. -/
theorem witness_EmptyWindowIsIndeterminate :
    State.reset.seen = false ∧ State.reset.cls = .indet ∧
    step { State.reset with inputs := [.command 0x806] } = .next { ackWindow with rsp := [Response.mk false 0x00] } :=
  ⟨rfl, rfl, rfl⟩
/-- An open frame meets the open-frame invariant with its premise true. -/
theorem witness_MarkedBeatsCloseWholeFrames_open : openFrame.fph = .opened ∧ openFrame.OpenFrameOk :=
  ⟨rfl, fun _ => ⟨[], 0x31, [], by decide, by decide⟩⟩
/-- A state whose `TX` holds a marked beat meets the marked-beat invariant. -/
theorem witness_MarkedBeatsCloseWholeFrames_marked :
    State.MarkedBeatsOk { State.reset with tx := frameBeats 0x31 [] } := by
  intro before c after h
  have hl : before.length + 1 + after.length = 7 := by
    simpa [frameBeats, plainBeats, headerBytes, Nat.add_assoc, Nat.add_comm 1] using (congrArg List.length h).symm
  have hc : (frameBeats 0x31 [])[before.length]? = some (Beat.mk c true) := by
    rw [show frameBeats 0x31 [] = before ++ Beat.mk c true :: after from h]; simp
  have hb : before.length = 6 := by
    have hlt : before.length < 7 := by omega
    generalize before.length = n at hc hlt
    have : ∀ n < 6, ((frameBeats 0x31 [])[n]?.map Beat.last) = some false := by decide
    by_contra hne
    have := this n (by omega)
    rw [hc] at this
    exact absurd this (by simp)
  have ha : after = [] := List.length_eq_zero_iff.mp (by omega)
  exact ⟨[], 0x31, [], by subst ha; exact h.symm⟩
/-- A response with the fault bit, of each cause. -/
theorem witness_FaultResponsesCarryACause :
    State.ResponsesOk { State.reset with rsp := [Response.mk true 0x01, Response.mk true 0x02] } := by
  intro r hr _
  simp only [List.mem_cons, List.not_mem_nil, or_false] at hr
  rcases hr with rfl | rfl
  · exact .inl rfl
  · exact .inr rfl
theorem witness_ChecksumLaws : List.Perm [(0x12 : Byte), 0x34] [0x34, 0x12] := List.Perm.swap _ _ _
theorem witness_SingleBitFlipIsDetected :
    0 < ([0x31, 0x30] : List Byte).length ∧ 1 < ([0x31, 0x30] : List Byte).length ∧ 0 ≠ 1 ∧ 0 < 8 ∧ 7 < 8 := by decide
theorem witness_FrameSurvivesInterleaving :
    State.reset.fph = .idle ∧ Instr.fend ∉ [Instr.fpush 0x41, .xclr, .reservedF, .carm, .fstart 0x32] := by decide
theorem witness_WindowsArePure : Instr.carm ∉ [Instr.cbyte 0x41, .fstart 0x31, .cbyte 0x06] := by decide
theorem witness_StickyBitsTellOfEveryFault : State.reset.eOp = false ∧ State.reset.eSeq = false := by decide
theorem witness_StatusDecodes :
    ([0x30, 0x31, 0x46, 0x34] : List Byte).length < 5 ∧ hexval 0x47 = none ∧ hexval 0x30 = some 0 ∧
    hexval 0x46 = some 15 := by decide
/-- A session start, and the same with a script whose next write is the count of the empty payload's frame. -/
def worldWriting (writes : List WriteResult) : World :=
  World.mk State.reset { Transport.fresh [] with writes := writes }
theorem witness_SendWritesTheFrameOnce :
    (worldWith []).block.inputs = [] ∧ (worldWith []).block.fph = .idle ∧
    (worldWith []).transport.TakesWhole (([] : List Byte).length + 7) := ⟨rfl, rfl, .inl rfl⟩
theorem witness_SendWritesTheFrameOnce_counted :
    (worldWriting [.count 7, .failure]).block.inputs = [] ∧ (worldWriting [.count 7, .failure]).block.fph = .idle ∧
    (worldWriting [.count 7, .failure]).transport.TakesWhole (([] : List Byte).length + 7) :=
  ⟨rfl, rfl, .inr ⟨[.failure], rfl⟩⟩
/-- A failed write, and one short by a byte. -/
theorem witness_SendWritesTheFrameOnce_stops :
    ¬ (worldWriting [.failure]).transport.TakesWhole (([] : List Byte).length + 7) ∧
    ¬ (worldWriting [.count 6]).transport.TakesWhole (([] : List Byte).length + 7) := by
  constructor <;> · rintro (h | ⟨rest, h⟩) <;> simp [worldWriting] at h
/-- Reads of every indeterminate kind. -/
theorem witness_IndeterminateReadsTimeOut :
    ∀ r ∈ (worldWith [.bytes [], .exception, .bytes [0x41, 0x06]]).transport.reads,
      r = .exception ∨ ∃ s, r = .bytes s ∧ s.length ≤ parameters.readMax ∧ classifyRead s = .indet := by
  intro r hr
  simp only [worldWith, Transport.fresh, List.mem_cons, List.not_mem_nil, or_false] at hr
  rcases hr with rfl | rfl | rfl
  · exact .inr ⟨[], rfl, by decide, by decide⟩
  · exact .inl rfl
  · exact .inr ⟨[0x41, 0x06], rfl, by decide, by decide⟩
/-- The last read the retries allow decides (DV13). -/
theorem witness_DecidingReadEndsTheExchange :
    (worldWith (List.replicate 5 (.bytes []) ++ [.bytes [0x06]])).transport.reads =
      List.replicate 5 (.bytes []) ++ .bytes [0x06] :: [] ∧
    (List.replicate 5 (ReadResult.bytes [])).length ≤ parameters.maxRetries ∧
    ([0x06] : List Byte).length ≤ parameters.readMax ∧ classifyRead [0x06] ≠ .indet := by decide
/-- The zoom query's exchange ends acknowledged and leaves these reads for the status. -/
def acknowledgedLeaving (reads : List ReadResult) : Bool :=
  match issue parameters 0x31 [0x43, 0x30, 0x30, 0x30, 0x30, 0x30] (worldWith (.bytes [0x06] :: reads)) with
  | .ok (o, w) => decide (o = .acknowledged [0x06] ∧ w.transport.reads = reads)
  | .error _ => false
/-- An acknowledged zoom query with a status read to come (V6), with none, and with one that raises an exception. -/
theorem witness_ZoomQueryOutcomes :
    acknowledgedLeaving [.bytes [0x30, 0x31, 0x46, 0x34, 0x58]] = true ∧ acknowledgedLeaving [] = true ∧
    acknowledgedLeaving [.exception] = true := by decide
/-- One whose status read is a byte longer than its `max_length` of 8, and one that just fits. -/
theorem witness_ZoomQueryOutcomes_lengths :
    acknowledgedLeaving [.bytes (List.replicate 9 0x30)] = true ∧
    parameters.readMax < (List.replicate 9 (0x30 : Byte)).length ∧
    acknowledgedLeaving [.bytes (List.replicate 8 0x30)] = true ∧
    (List.replicate 8 (0x30 : Byte)).length ≤ parameters.readMax := by decide
/-- Exchanges of the zoom query that end rejected (V7) and timed out (V8, with no retry). -/
theorem witness_ZoomQueryOutcomes_failures :
    (match issue parameters 0x31 [0x43, 0x30, 0x30, 0x30, 0x30, 0x30] (worldWith [.bytes [0x15]]) with
      | .ok (o, _) => decide (o = .rejected [0x15])
      | .error _ => false) = true ∧
    (match issue { parameters with maxRetries := 0 } 0x31 [0x43, 0x30, 0x30, 0x30, 0x30, 0x30] (worldWith []) with
      | .ok (o, _) => decide (o = .timedOut)
      | .error _ => false) = true := by decide
/-- An exchange that ends (R136's premise). -/
theorem witness_ExchangeIsBounded :
    outcomeOf { parameters with maxRetries := 0 } [.bytes [0x15]] = some (.rejected [0x15], 1) := by decide

end Sys2Proof.Tests
end

section
/-! PROOFS. The block's hardwired bytes (spec/00_scope.md R5). -/

namespace Sys2Proof.Machine

/-- Settles O9: each field of the record `constants` is R5's literal by definition. -/
theorem hardwiredBytesAreTheSpecs : Obligations.HardwiredBytesAreTheSpecs :=
  ⟨rfl, rfl, rfl, rfl, rfl, rfl, rfl⟩

end Sys2Proof.Machine
end

section
/-! PROOFS. Support: what an operation can have done, said once as the relation `Effect`, one case per accepted form and
one per fault (spec/30_encoding.md R46, spec/60_exceptions.md R151 to R153). -/

namespace Sys2Proof.Machine

/-! ### The accepted side of the phase-checked operations -/

/-- `XCLR` accepted (R74). -/
theorem execXclr_idle {s : State} (h : s.fph = .idle) :
    execXclr s = .next { s with bcc := 0x00, rsp := s.rsp ++ [Response.mk false 0x00] } := by
  rw [execXclr, State.inPhase_same h]; rfl

/-- `XABS` accepted (R75). -/
theorem execXabs_idle {s : State} (b : Byte) (h : s.fph = .idle) :
    execXabs b s = .next { s with bcc := s.bcc ^^^ b, rsp := s.rsp ++ [Response.mk false 0x00] } := by
  rw [execXabs, State.inPhase_same h]; rfl

/-- `FSTART` accepted: its five beats are the header, unmarked (R83). -/
theorem execFstart_idle {s : State} (d : Byte) (h : s.fph = .idle) :
    execFstart d s = .next
      { s with
        tx := s.tx ++ plainBeats (headerBytes d)
        bcc := d ^^^ constants.mode ^^^ constants.sid ^^^ constants.stx
        fph := .opened
        rsp := s.rsp ++ [Response.mk false 0x00] } := by
  rw [execFstart, State.inPhase_same h]
  simp [State.txEmit, State.setBcc, State.setPhase, State.respond, plainBeats, headerBytes]

/-- `FPUSH` accepted (R84). -/
theorem execFpush_opened {s : State} (b : Byte) (h : s.fph = .opened) :
    execFpush b s = .next
      { s with tx := s.tx ++ [Beat.mk b false], bcc := s.bcc ^^^ b, rsp := s.rsp ++ [Response.mk false 0x00] } := by
  rw [execFpush, State.inPhase_same h]; rfl

/-- `FEND` accepted: the marked beat holds the `BCC` that has `ETX` absorbed (R85). -/
theorem execFend_opened {s : State} (h : s.fph = .opened) :
    execFend s = .next
      { s with
        tx := s.tx ++ [Beat.mk constants.etx false, Beat.mk (s.bcc ^^^ constants.etx) true]
        bcc := s.bcc ^^^ constants.etx
        fph := .idle
        rsp := s.rsp ++ [Response.mk false 0x00] } := by
  rw [execFend, State.inPhase_same h]
  simp [State.txEmit, State.setBcc, State.setPhase, State.respond]

/-! ### The relation -/

/-- The five reserved operations (R56). -/
def reservedInstrs : List Instr := [.reservedB, .reservedC, .reservedD, .reservedE, .reservedF]

/-- The five pairs of an operation and the phase before it that are `SeqFault` (R151). -/
def WrongPhase (i : Instr) (p : Phase) : Prop :=
  (p = .opened ∧ (i = .xclr ∨ (∃ b, i = .xabs b) ∨ ∃ d, i = .fstart d)) ∨
  (p = .idle ∧ ((∃ b, i = .fpush b) ∨ i = .fend))

/-- `Effect i s t`: the operation `i` takes the state `s` to `t`, with the guard under which it does. -/
inductive Effect : Instr → State → State → Prop
  | opFault {i s} (h : i ∈ reservedInstrs) :
    Effect i s { s with eOp := true, rsp := s.rsp ++ [Response.mk true 0x01] }
  | seqFault {i s} (h : WrongPhase i s.fph) :
    Effect i s { s with eSeq := true, rsp := s.rsp ++ [Response.mk true 0x02] }
  | nop {s} : Effect .nop s { s with rsp := s.rsp ++ [Response.mk false 0x00] }
  | xrd {s} : Effect .xrd s { s with rsp := s.rsp ++ [Response.mk false s.bcc] }
  | crd {s} : Effect .crd s { s with rsp := s.rsp ++ [Response.mk false (classData s.cls)] }
  | srd {s} : Effect .srd s { s with rsp := s.rsp ++ [Response.mk false (stat s)] }
  | xclr {s} (h : s.fph = .idle) :
    Effect .xclr s { s with bcc := 0x00, rsp := s.rsp ++ [Response.mk false 0x00] }
  | xabs {s} (b : Byte) (h : s.fph = .idle) :
    Effect (.xabs b) s { s with bcc := s.bcc ^^^ b, rsp := s.rsp ++ [Response.mk false 0x00] }
  | fstart {s} (d : Byte) (h : s.fph = .idle) :
    Effect (.fstart d) s
      { s with
        tx := s.tx ++ plainBeats (headerBytes d)
        bcc := d ^^^ constants.mode ^^^ constants.sid ^^^ constants.stx
        fph := .opened
        rsp := s.rsp ++ [Response.mk false 0x00] }
  | fpush {s} (b : Byte) (h : s.fph = .opened) :
    Effect (.fpush b) s
      { s with tx := s.tx ++ [Beat.mk b false], bcc := s.bcc ^^^ b, rsp := s.rsp ++ [Response.mk false 0x00] }
  | fend {s} (h : s.fph = .opened) :
    Effect .fend s
      { s with
        tx := s.tx ++ [Beat.mk constants.etx false, Beat.mk (s.bcc ^^^ constants.etx) true]
        bcc := s.bcc ^^^ constants.etx
        fph := .idle
        rsp := s.rsp ++ [Response.mk false 0x00] }
  | carm {s} : Effect .carm s { s with seen := false, cls := .indet, rsp := s.rsp ++ [Response.mk false 0x00] }
  | cbyteFirst {s} (b : Byte) (h : s.seen = false) :
    Effect (.cbyte b) s { s with seen := true, cls := classify b, rsp := s.rsp ++ [Response.mk false 0x00] }
  | cbyteLater {s} (b : Byte) (h : s.seen = true) :
    Effect (.cbyte b) s { s with rsp := s.rsp ++ [Response.mk false 0x00] }

/-- Every operation completes with one of the effects (R183). -/
theorem exec_effect (i : Instr) (s : State) : ∃ t, exec i s = .next t ∧ Effect i s t := by
  cases i with
  | nop => exact ⟨_, rfl, .nop⟩
  | xclr =>
    cases hp : s.fph with
    | idle => exact ⟨_, execXclr_idle hp, .xclr hp⟩
    | opened => exact ⟨_, execXclr_opened hp, .seqFault (.inl ⟨hp, .inl rfl⟩)⟩
  | xabs b =>
    cases hp : s.fph with
    | idle => exact ⟨_, execXabs_idle b hp, .xabs b hp⟩
    | opened => exact ⟨_, execXabs_opened b hp, .seqFault (.inl ⟨hp, .inr (.inl ⟨b, rfl⟩)⟩)⟩
  | xrd => exact ⟨_, rfl, .xrd⟩
  | fstart d =>
    cases hp : s.fph with
    | idle => exact ⟨_, execFstart_idle d hp, .fstart d hp⟩
    | opened => exact ⟨_, execFstart_opened d hp, .seqFault (.inl ⟨hp, .inr (.inr ⟨d, rfl⟩)⟩)⟩
  | fpush b =>
    cases hp : s.fph with
    | idle => exact ⟨_, execFpush_idle b hp, .seqFault (.inr ⟨hp, .inl ⟨b, rfl⟩⟩)⟩
    | opened => exact ⟨_, execFpush_opened b hp, .fpush b hp⟩
  | fend =>
    cases hp : s.fph with
    | idle => exact ⟨_, execFend_idle hp, .seqFault (.inr ⟨hp, .inr rfl⟩)⟩
    | opened => exact ⟨_, execFend_opened hp, .fend hp⟩
  | carm => exact ⟨_, rfl, .carm⟩
  | cbyte b =>
    cases hs : s.seen with
    | false => exact ⟨_, by rw [exec, execCbyte, State.takeByte_first b hs]; rfl, .cbyteFirst b hs⟩
    | true => exact ⟨_, by rw [exec, execCbyte, State.takeByte_later b hs]; rfl, .cbyteLater b hs⟩
  | crd => exact ⟨_, rfl, .crd⟩
  | srd => exact ⟨_, rfl, .srd⟩
  | reservedB => exact ⟨_, rfl, .opFault (by decide)⟩
  | reservedC => exact ⟨_, rfl, .opFault (by decide)⟩
  | reservedD => exact ⟨_, rfl, .opFault (by decide)⟩
  | reservedE => exact ⟨_, rfl, .opFault (by decide)⟩
  | reservedF => exact ⟨_, rfl, .opFault (by decide)⟩

/-- The inversion of `exec`: a next state is the one of its effect. -/
theorem effect_of_exec {i : Instr} {s t : State} (h : exec i s = .next t) : Effect i s t := by
  obtain ⟨u, hu, e⟩ := exec_effect i s
  cases hu.symm.trans h
  exact e

/-- No reserved operation is one of the five pairs: it takes `OpFault` alone (R151, R152). -/
theorem not_wrongPhase_of_reserved {i : Instr} {p : Phase} (h : i ∈ reservedInstrs) : ¬ WrongPhase i p := by
  simp only [reservedInstrs, List.mem_cons, List.not_mem_nil, or_false] at h
  rcases h with rfl | rfl | rfl | rfl | rfl <;> simp [WrongPhase]

end Sys2Proof.Machine
end

section
/-! PROOFS. The step: the command it runs (spec/10_state.md R17, R22), its invariants, and the order in which inputs
complete (spec/20_memory.md R36). -/

namespace Sys2Proof.Machine

/-- A predicate that taking an input, a reset event and every effect keep is kept by the step. -/
theorem step_keeps {P : State → Prop} (take : ∀ s rest, P s → P { s with inputs := rest })
    (reset : ∀ s, P s → P s.resetEvent) (effect : ∀ i s t, P s → Effect i s t → P t)
    {s t : State} (hs : P s) (h : step s = .next t) : P t := by
  rcases step_cases h with ⟨-, rfl⟩ | ⟨rest, -, rfl⟩ | ⟨w, rest, -, he⟩
  · exact hs
  · exact reset _ (take s rest hs)
  · exact effect _ _ _ (take s rest hs) (effect_of_exec he)

/-- Settles O10: the input taken is the word, and the step runs what it decodes to. -/
theorem stepRunsPresentedCommand : Obligations.StepRunsPresentedCommand := by
  rintro s _ w rest hin rfl
  simp only [step, State.takeInput_cons hin]

/-- A step carries out the next input, and what stands behind it stays and plays no part (R22, R36). -/
theorem step_carries_out_next (i : Input) (s : State) :
    ∃ t : State, ∀ rest, step { s with inputs := i :: rest } = .next { t with inputs := rest } := by
  cases i with
  | reset => exact ⟨s.resetEvent, fun _ => rfl⟩
  | command w =>
    obtain ⟨t, ht, -⟩ := exec_effect (decode w) s
    exact ⟨t, fun rest => exec_ignores_inputs (s := s) (decode w) rest ht⟩

/-- One step an input carries out the inputs `now`; the end state does not depend on the inputs behind them. -/
theorem run_carries_out (now : List Input) (s : State) :
    ∃ t : State, ∀ later, run now.length { s with inputs := now ++ later } = .next { t with inputs := later } := by
  induction now generalizing s with
  | nil => exact ⟨s, fun _ => rfl⟩
  | cons i now ih =>
    obtain ⟨u, hu⟩ := step_carries_out_next i s
    obtain ⟨t, ht⟩ := ih u
    exact ⟨t, fun later => (run_succ_of_step _ (hu (now ++ later))).trans (ht later)⟩

/-- Settles O12: `run_carries_out` with nothing behind the inputs, and with `later` behind them. -/
theorem inputsCompleteInOrder : Obligations.InputsCompleteInOrder := by
  intro s now later
  obtain ⟨t, ht⟩ := run_carries_out now s
  have alone := ht []
  rw [List.append_nil] at alone
  exact ⟨{ t with inputs := [] }, alone, rfl, ht later⟩

end Sys2Proof.Machine
end

section
/-! PROOFS. The reset values and the fields of `STAT` (spec/10_state.md R18, R23). -/

namespace Sys2Proof.Machine

/-- Settles O8: each register of the state after reset is the spec's value by definition. -/
theorem resetHoldsSpecValues : Obligations.ResetHoldsSpecValues :=
  ⟨rfl, rfl, rfl, rfl, rfl, rfl, rfl, rfl, rfl⟩

/-- `STAT[0]` (R18). -/
theorem stat_bit_eOp (s : State) : (stat s).getLsbD 0 = s.eOp := by
  simp only [stat, BitVec.getLsbD_append]
  simp

/-- `STAT[1]` (R18). -/
theorem stat_bit_eSeq (s : State) : (stat s).getLsbD 1 = s.eSeq := by
  simp only [stat, BitVec.getLsbD_append]
  simp

/-- `STAT[2]` (R18). -/
theorem stat_bit_fopen (s : State) : (stat s).getLsbD 2 = s.fph.bit.getLsbD 0 := by
  simp only [stat, BitVec.getLsbD_append]
  simp

/-- `STAT[3]` (R18). -/
theorem stat_bit_seen (s : State) : (stat s).getLsbD 3 = s.seen := by
  simp only [stat, BitVec.getLsbD_append]
  simp

/-- `STAT[5:4]` (R18). -/
theorem stat_field_class (s : State) : (stat s).extractLsb' 4 2 = s.cls.code := by
  refine BitVec.eq_of_getLsbD_eq fun k hk => ?_
  obtain rfl | rfl : k = 0 ∨ k = 1 := by omega
  all_goals
    simp only [stat, BitVec.getLsbD_extractLsb', BitVec.getLsbD_append]
    simp

/-- `STAT[7:6]` (R18). -/
theorem stat_field_top (s : State) : (stat s).extractLsb' 6 2 = 0b00 := by
  refine BitVec.eq_of_getLsbD_eq fun k hk => ?_
  obtain rfl | rfl : k = 0 ∨ k = 1 := by omega
  all_goals
    simp only [stat, BitVec.getLsbD_extractLsb', BitVec.getLsbD_append]
    simp

/-- `FPH` as a bit tells whether a frame is open (R12). -/
theorem Phase.bit_eq_true_iff (p : Phase) : p.bit.getLsbD 0 = true ↔ p = .opened := by
  cases p <;> decide

/-- No class has the code `0b11` (R57, R62). -/
theorem ResponseClass.code_ne_three (c : ResponseClass) : c.code ≠ 0b11 := by
  cases c <;> decide

/-- Settles O24, field by field. -/
theorem statusFieldsAreLive : Obligations.StatusFieldsAreLive := fun s =>
  ⟨stat_bit_eOp s, stat_bit_eSeq s, by rw [stat_bit_fopen, Phase.bit_eq_true_iff], stat_bit_seen s,
    stat_field_class s, s.cls.code_ne_three, stat_field_top s⟩

/-- Settles O39: at reset no frame is open, the window is empty and both histories are. -/
theorem resetMeetsTheInvariants : Obligations.ResetMeetsTheInvariants := by
  refine ⟨fun _ => rfl, ⟨nofun, ?marked⟩, nofun, rfl, rfl, rfl⟩
  case marked =>
    intro before c after h
    exact absurd h.symm (List.append_ne_nil_of_right_ne_nil before (List.cons_ne_nil _ _))

end Sys2Proof.Machine
end

section
/-! PROOFS. Faults and responses: the sticky bits (spec/10_state.md R15, R16) and the one response of an operation (R21,
R50). -/

namespace Sys2Proof.Machine

/-- What sets `E_OP`, exactly (R15). -/
theorem Effect.eOp_iff {i : Instr} {s t : State} (e : Effect i s t) :
    t.eOp = true ↔ s.eOp = true ∨ i ∈ reservedInstrs := by
  cases e with
  | opFault h => simp [h]
  | seqFault h =>
    have hr : i ∉ reservedInstrs := fun hr => not_wrongPhase_of_reserved hr h
    simp [hr]
  | nop | xrd | crd | srd | xclr | xabs | fstart | fpush | fend | carm | cbyteFirst | cbyteLater =>
    simp [reservedInstrs]

/-- What sets `E_SEQ`, exactly (R16). -/
theorem Effect.eSeq_iff {i : Instr} {s t : State} (e : Effect i s t) :
    t.eSeq = true ↔ s.eSeq = true ∨ WrongPhase i s.fph := by
  cases e with
  | opFault h => simp [not_wrongPhase_of_reserved h]
  | seqFault h => simp [h]
  | xclr h | xabs _ h | fstart _ h | fpush _ h | fend h => simp [WrongPhase, h]
  | nop | xrd | crd | srd | carm | cbyteFirst | cbyteLater => simp [WrongPhase]

/-- A step that is no reset event clears no sticky bit (R15, R16). -/
theorem step_resets_or_keeps_sticky {s t : State} (h : step s = .next t) :
    (∃ rest, s.inputs = .reset :: rest) ∨
    ((s.eOp = true → t.eOp = true) ∧ (s.eSeq = true → t.eSeq = true)) := by
  rcases step_cases h with ⟨-, rfl⟩ | ⟨rest, hin, -⟩ | ⟨w, rest, -, he⟩
  · exact .inr ⟨id, id⟩
  · exact .inl ⟨rest, hin⟩
  · have e := effect_of_exec he
    exact .inr ⟨fun hs => e.eOp_iff.mpr (.inl hs), fun hs => e.eSeq_iff.mpr (.inl hs)⟩

/-- Settles O30: `Effect.eOp_iff` and `Effect.eSeq_iff` say what sets the bits, and a step that clears one is a reset event,
which clears both. -/
theorem stickyBitsSetExactlyAndClearedByReset : Obligations.StickyBitsSetExactlyAndClearedByReset := by
  refine ⟨fun i s t h => ⟨(effect_of_exec h).eOp_iff, (effect_of_exec h).eSeq_iff⟩, ?cleared, ?reset⟩
  case cleared =>
    intro s t h hclear
    rcases step_resets_or_keeps_sticky h with hreset | ⟨keepsOp, keepsSeq⟩
    · exact hreset
    · rcases hclear with ⟨hs, ht⟩ | ⟨hs, ht⟩
      · exact absurd (keepsOp hs) (by simp [ht])
      · exact absurd (keepsSeq hs) (by simp [ht])
  case reset =>
    intro s t rest hin h
    simp only [step, State.takeInput_cons hin] at h
    cases h
    exact ⟨rfl, rfl⟩

/-- The class code as a byte (R62, R99). -/
theorem classData_eq_zeroExtend (c : ResponseClass) : classData c = c.code.zeroExtend 8 := by
  cases c <;> rfl

/-- Settles O32: the response of each effect, read off its case. -/
theorem oneResponsePerOperation : Obligations.OneResponsePerOperation := by
  intro i s
  obtain ⟨t, ht, e⟩ := exec_effect i s
  cases e with
  | opFault => exact ⟨_, _, ht, rfl, fun _ => .inl rfl, nofun⟩
  | seqFault => exact ⟨_, _, ht, rfl, fun _ => .inr rfl, nofun⟩
  | crd => exact ⟨_, _, ht, rfl, nofun, fun _ => classData_eq_zeroExtend s.cls⟩
  | nop | xrd | srd | xclr | xabs | fstart | fpush | fend | carm | cbyteFirst | cbyteLater =>
    exact ⟨_, _, ht, rfl, nofun, fun _ => rfl⟩

end Sys2Proof.Machine
end

section
/-! PROOFS. The window invariant and the transmit invariant (spec/10_state.md R11 to R14, R20). -/

namespace Sys2Proof.Machine

/-- Settles O36: only `CARM`, a window's first byte and a reset event write `SEEN` or `CLASS`, and they leave
`SEEN = 0` with `INDET`, or `SEEN = 1`. -/
theorem emptyWindowIsIndeterminate : Obligations.EmptyWindowIsIndeterminate := by
  intro s t
  refine step_keeps (fun _ _ h => h) (fun _ _ _ => rfl) ?_
  intro i s t h e
  cases e with
  | carm => exact fun _ => rfl
  | cbyteFirst => exact nofun
  | opFault | seqFault | nop | xrd | crd | srd | xclr | xabs | fstart | fpush | fend | cbyteLater => exact h

/-- With no frame open the open-frame invariant says nothing. -/
theorem State.openFrameOk_of_idle {s : State} (h : s.fph = .idle) : s.OpenFrameOk := by
  intro ho
  rw [h] at ho
  cases ho

/-- One more beat keeps the marked-beat invariant, if a marked one ends a whole frame. -/
theorem State.MarkedBeatsOk.snoc {s t : State} {b : Beat} (h : s.MarkedBeatsOk) (htx : t.tx = s.tx ++ [b])
    (hb : b.last = true → ∃ earlier d p, t.tx = earlier ++ frameBeats d p) : t.MarkedBeatsOk := by
  intro before c after heq
  rw [htx] at heq
  rcases List.eq_nil_or_concat' after with rfl | ⟨init, x, rfl⟩
  case inl =>
    obtain rfl : b = Beat.mk c true := List.singleton_inj.mp (List.append_inj' heq rfl).2
    rw [← heq, ← htx]
    exact hb rfl
  case inr =>
    rw [← List.cons_append, ← List.append_assoc] at heq
    exact h before c init (List.append_inj' heq rfl).1

/-- Unmarked beats keep the marked-beat invariant. -/
theorem State.MarkedBeatsOk.append_plainBeats {s t : State} (bs : List Byte) (h : s.MarkedBeatsOk)
    (htx : t.tx = s.tx ++ plainBeats bs) : t.MarkedBeatsOk := by
  induction bs generalizing s with
  | nil =>
    intro before c after heq
    exact h before c after (by simpa [htx, plainBeats] using heq)
  | cons b bs ih =>
    have emitted : (s.txEmit b false).MarkedBeatsOk := h.snoc rfl nofun
    exact ih emitted (by simp [htx, plainBeats])

/-- An accepted `FSTART` begins a frame: header on `TX`, its parity in `BCC` (R83). -/
theorem State.TransmitOk.fstart {s t : State} (d : Byte) (h : s.TransmitOk)
    (htx : t.tx = s.tx ++ plainBeats (headerBytes d))
    (hbcc : t.bcc = d ^^^ constants.mode ^^^ constants.sid ^^^ constants.stx) : t.TransmitOk := by
  obtain ⟨-, hmarked⟩ := h
  exact ⟨fun _ => ⟨s.tx, d, [], by rw [htx, List.append_nil], by rw [hbcc, xor8_openBody_nil]⟩,
    hmarked.append_plainBeats _ htx⟩

/-- An accepted `FPUSH` makes the payload of the open frame longer by its byte (R84). -/
theorem State.TransmitOk.fpush {s t : State} (b : Byte) (h : s.TransmitOk) (hopen : s.fph = .opened)
    (htx : t.tx = s.tx ++ [Beat.mk b false]) (hbcc : t.bcc = s.bcc ^^^ b) : t.TransmitOk := by
  obtain ⟨hframe, hmarked⟩ := h
  obtain ⟨before, d, p, hs, hparity⟩ := hframe hopen
  refine ⟨fun _ => ⟨before, d, p ++ [b], ?_, ?_⟩, hmarked.snoc htx nofun⟩
  · rw [htx, hs, ← List.append_assoc, plainBeats_append _ [b], List.append_assoc]; rfl
  · rw [hbcc, hparity, openBody_snoc, xor8_snoc]

/-- An accepted `FEND` closes the open frame: its marked beat is that frame's checksum (R85). -/
theorem State.TransmitOk.fend {s t : State} (h : s.TransmitOk) (hopen : s.fph = .opened) (hidle : t.fph = .idle)
    (htx : t.tx = s.tx ++ [Beat.mk constants.etx false, Beat.mk (s.bcc ^^^ constants.etx) true]) : t.TransmitOk := by
  obtain ⟨hframe, hmarked⟩ := h
  obtain ⟨before, d, p, hs, hparity⟩ := hframe hopen
  have whole : t.tx = before ++ frameBeats d p := by
    simp [htx, hs, hparity, frameBeats, checksum_eq, plainBeats]
  have etxEmitted : (s.txEmit constants.etx false).MarkedBeatsOk := hmarked.snoc rfl nofun
  have marked : t.MarkedBeatsOk :=
    etxEmitted.snoc (b := Beat.mk (s.bcc ^^^ constants.etx) true) (by simp [htx]) fun _ => ⟨before, d, p, whole⟩
  exact ⟨State.openFrameOk_of_idle hidle, marked⟩

/-- Settles O37: the framer's three operations are the lemmas above; an accepted `XCLR` or `XABS` finds no frame open, and
nothing else writes `FPH`, `BCC` or `TX`, but a reset event, which leaves no frame open and `TX` as it is. -/
theorem markedBeatsCloseWholeFrames : Obligations.MarkedBeatsCloseWholeFrames := by
  intro s t
  refine step_keeps (fun _ _ h => h) (fun _ ⟨_, hmarked⟩ => ⟨State.openFrameOk_of_idle rfl, hmarked⟩) ?_
  intro i s t h e
  have ⟨_, hmarked⟩ := h
  cases e with
  | fstart d => exact h.fstart d rfl rfl
  | fpush b hopen => exact h.fpush b hopen rfl rfl
  | fend hopen => exact h.fend hopen rfl rfl
  | xclr hidle | xabs _ hidle => exact ⟨State.openFrameOk_of_idle hidle, hmarked⟩
  | opFault | seqFault | nop | xrd | crd | srd | carm | cbyteFirst | cbyteLater => exact h

end Sys2Proof.Machine
end

section
/-! PROOFS. What each operation reaches: the write columns of the register table (spec/20_memory.md R31). -/

namespace Sys2Proof.Machine

/-- The operations R31 lets write `BCC`: the two of XCG that change it and the framer's three. -/
def WritesBcc (i : Instr) : Prop :=
  i = .xclr ∨ (∃ b, i = .xabs b) ∨ (∃ d, i = .fstart d) ∨ (∃ b, i = .fpush b) ∨ i = .fend

/-- Only an operation that writes `BCC` can be in the wrong phase (R151). -/
theorem WrongPhase.writesBcc {i : Instr} {p : Phase} (h : WrongPhase i p) : WritesBcc i := by
  rcases h with ⟨-, hxclr | hxabs | hfstart⟩ | ⟨-, hfpush | hfend⟩
  · exact .inl hxclr
  · exact .inr (.inl hxabs)
  · exact .inr (.inr (.inl hfstart))
  · exact .inr (.inr (.inr (.inl hfpush)))
  · exact .inr (.inr (.inr (.inr hfend)))

/-- Who writes `BCC` (R31). -/
theorem Effect.writesBcc_of_bcc_ne {i : Instr} {s t : State} (e : Effect i s t) (hne : t.bcc ≠ s.bcc) :
    WritesBcc i := by
  cases e with
  | xclr | xabs | fstart | fpush | fend => simp [WritesBcc]
  | opFault | seqFault | nop | xrd | crd | srd | carm | cbyteFirst | cbyteLater => exact absurd rfl hne

/-- Who writes `FPH` (R31). -/
theorem Effect.fstart_or_fend_of_fph_ne {i : Instr} {s t : State} (e : Effect i s t) (hne : t.fph ≠ s.fph) :
    (∃ d, i = .fstart d) ∨ i = .fend := by
  cases e with
  | fstart d => exact .inl ⟨d, rfl⟩
  | fend => exact .inr rfl
  | opFault | seqFault | nop | xrd | crd | srd | xclr | xabs | fpush | carm | cbyteFirst | cbyteLater =>
    exact absurd rfl hne

/-- Who writes `SEEN` or `CLASS` (R31). -/
theorem Effect.carm_or_cbyte_of_window_ne {i : Instr} {s t : State} (e : Effect i s t)
    (hne : t.seen ≠ s.seen ∨ t.cls ≠ s.cls) : i = .carm ∨ ∃ b, i = .cbyte b := by
  cases e with
  | carm => exact .inl rfl
  | cbyteFirst b | cbyteLater b => exact .inr ⟨b, rfl⟩
  | opFault | seqFault | nop | xrd | crd | srd | xclr | xabs | fstart | fpush | fend =>
    exact hne.elim (absurd rfl) (absurd rfl)

/-- A bit that only `P` sets and nothing clears has changed only under `P`. -/
theorem cause_of_sticky_ne {before after : Bool} {P : Prop} (hset : after = true ↔ before = true ∨ P)
    (hne : after ≠ before) : P := by
  cases before with
  | false => exact (hset.mp (Bool.eq_true_of_not_eq_false hne)).resolve_left Bool.false_ne_true
  | true => exact absurd (hset.mpr (.inl rfl)) hne

/-- Every operation appends one response (R21). -/
theorem Effect.rsp_eq_append {i : Instr} {s t : State} (e : Effect i s t) : ∃ r, t.rsp = s.rsp ++ [r] := by
  cases e <;> exact ⟨_, rfl⟩

/-- No operation writes the inputs still to come (R22). -/
theorem Effect.inputs_eq {i : Instr} {s t : State} (e : Effect i s t) : t.inputs = s.inputs := by
  cases e <;> rfl

/-- How many beats an operation appends when it meets a phase: those of an accepted `FSTART`, `FPUSH` or `FEND`, and none
otherwise (R20, R83 to R85). -/
def beatCount : Instr → Phase → Nat
  | .fstart _, .idle => 5
  | .fpush _, .opened => 1
  | .fend, .opened => 2
  | _, _ => 0

/-- A reserved operation appends no beat (R153). -/
theorem beatCount_of_reserved {i : Instr} {p : Phase} (h : i ∈ reservedInstrs) : beatCount i p = 0 := by
  simp only [reservedInstrs, List.mem_cons, List.not_mem_nil, or_false] at h
  rcases h with rfl | rfl | rfl | rfl | rfl <;> rfl

/-- An operation in the wrong phase appends no beat (R153). -/
theorem WrongPhase.beatCount_eq_zero {i : Instr} {p : Phase} (h : WrongPhase i p) : beatCount i p = 0 := by
  rcases h with ⟨rfl, rfl | ⟨_, rfl⟩ | ⟨_, rfl⟩⟩ | ⟨rfl, ⟨_, rfl⟩ | rfl⟩ <;> rfl

/-- Every operation appends `beatCount` beats (R20). -/
theorem Effect.tx_eq_append {i : Instr} {s t : State} (e : Effect i s t) :
    ∃ beats, t.tx = s.tx ++ beats ∧ beats.length = beatCount i s.fph := by
  cases e with
  | opFault h => exact ⟨[], s.tx.append_nil.symm, (beatCount_of_reserved h).symm⟩
  | seqFault h => exact ⟨[], s.tx.append_nil.symm, h.beatCount_eq_zero.symm⟩
  | fstart _ h | fpush _ h | fend h => exact ⟨_, rfl, by rw [h]; rfl⟩
  | nop | xrd | crd | srd | xclr | xabs | carm | cbyteFirst | cbyteLater =>
    exact ⟨[], s.tx.append_nil.symm, rfl⟩

/-- Settles O33, register by register: who writes it is read off the effect, the sticky bits by what sets them. -/
theorem whatEachOperationReaches : Obligations.WhatEachOperationReaches := by
  intro i s t h
  have e := effect_of_exec h
  refine ⟨e.writesBcc_of_bcc_ne, e.fstart_or_fend_of_fph_ne, e.carm_or_cbyte_of_window_ne,
    cause_of_sticky_ne e.eOp_iff, ?seqWriters, e.rsp_eq_append, e.inputs_eq, e.tx_eq_append⟩
  case seqWriters =>
    intro hne
    have wrong : WrongPhase i s.fph := cause_of_sticky_ne e.eSeq_iff hne
    exact wrong.writesBcc

end Sys2Proof.Machine
end

section
/-! PROOFS. The fields of a command word, a response word and a transmit beat (spec/30_encoding.md R45, R50, R51). -/

namespace Sys2Proof.Machine

/-- A command word is `op` above `arg` (R45). -/
theorem commandWord_eq_append (op : BitVec 4) (arg : Byte) : commandWord op arg = op ++ arg := by
  rw [BitVec.append_def, commandWord, BitVec.shiftLeftZeroExtend_eq, BitVec.setWidth'_eq]

/-- `op` of the word built from its fields (R45). -/
@[simp] theorem opField_commandWord (op : BitVec 4) (arg : Byte) : opField (commandWord op arg) = op := by
  rw [commandWord_eq_append]
  exact BitVec.extractLsb'_append_eq_left

/-- `arg` of the word built from its fields (R45). -/
@[simp] theorem argField_commandWord (op : BitVec 4) (arg : Byte) : argField (commandWord op arg) = arg := by
  rw [commandWord_eq_append]
  exact BitVec.extractLsb'_append_eq_right

/-- A command word holds its two fields and nothing else (R45). -/
@[simp] theorem commandWord_fields (w : CommandWord) : commandWord (opField w) (argField w) = w := by
  rw [commandWord_eq_append]
  exact BitVec.extractLsb'_append_extractLsb'

/-- The mask `0xF00` keeps `op` and clears `arg` (R46). -/
theorem and_opMask (w : CommandWord) : w &&& 0xF00 = commandWord (opField w) 0x00 := by
  have mask : (0xF00 : CommandWord) = BitVec.allOnes 4 ++ 0#8 := by decide
  calc w &&& 0xF00 = (opField w ++ argField w) &&& (BitVec.allOnes 4 ++ 0#8) := by
        rw [← commandWord_eq_append, commandWord_fields, mask]
    _ = opField w ++ 0#8 := by rw [BitVec.and_append, BitVec.and_allOnes, BitVec.and_zero]
    _ = commandWord (opField w) 0x00 := (commandWord_eq_append _ _).symm

/-- Bit 8 of a nine-bit port word (R50, R51). -/
theorem portWord_bit8 (f : Bool) (d : Byte) : (BitVec.ofBool f ++ d).getLsbD 8 = f := by
  rw [BitVec.getLsbD_append, if_neg (by decide)]
  simp

/-- Nine bits are bit 8 above bits 7:0 (R50, R51). -/
theorem portWord_of_fields (w : BitVec 9) : BitVec.ofBool (w.getLsbD 8) ++ w.extractLsb' 0 8 = w := by
  have bit8 : BitVec.ofBool (w.getLsbD 8) = w.extractLsb' 8 1 := by
    ext k hk
    obtain rfl : k = 0 := by omega
    simp
  rw [bit8]
  exact BitVec.extractLsb'_append_extractLsb'

/-- The fields of a response word are those it was built from (R50). -/
theorem Response.ofWord_word (r : Response) : Response.ofWord r.word = r := by
  rw [Response.ofWord, Response.word, portWord_bit8, BitVec.extractLsb'_append_eq_right]

/-- The fields of a beat are those it was built from (R51). -/
theorem Beat.ofWord_word (b : Beat) : Beat.ofWord b.word = b := by
  rw [Beat.ofWord, Beat.word, portWord_bit8, BitVec.extractLsb'_append_eq_right]

/-- Settles O7: both port words are `BitVec.ofBool` of their top bit above their byte. -/
theorem portWordsCarryTheirFields : Obligations.PortWordsCarryTheirFields :=
  ⟨fun r => ⟨portWord_bit8 _ _, BitVec.extractLsb'_append_eq_right, r.ofWord_word⟩, portWord_of_fields,
    fun b => ⟨portWord_bit8 _ _, BitVec.extractLsb'_append_eq_right, b.ofWord_word⟩, portWord_of_fields⟩

end Sys2Proof.Machine
end

section
/-! PROOFS. Decode and encode agree (spec/30_encoding.md R46 to R48, R58). -/

namespace Sys2Proof.Machine

/-- A word built from its fields decodes by the table of R46. -/
theorem decode_commandWord (op : BitVec 4) (arg : Byte) : decode (commandWord op arg) = decodeFields op arg := by
  rw [decode, opField_commandWord, argField_commandWord]

/-- The table of R46 read at an operation's own fields is that operation. -/
theorem decodeFields_opcode_argument (i : Instr) : decodeFields i.opcode i.argument = i := by
  cases i <;> simp only [Instr.opcode, Instr.argument] <;> rfl

/-- Decoding undoes encoding (R58). -/
theorem decode_encode (i : Instr) : decode (encode i) = i :=
  (decode_commandWord _ _).trans (decodeFields_opcode_argument i)

/-- The family `SourceForm` of every operation: its line is well formed and assembles to its encoding (R58). -/
theorem sourceForm (i : Instr) : Laws.SourceForm.Statement i :=
  match i with
  | .nop => Laws.SourceForm.nop
  | .xclr => Laws.SourceForm.xclr
  | .xabs b => Laws.SourceForm.xabs b
  | .xrd => Laws.SourceForm.xrd
  | .fstart d => Laws.SourceForm.fstart d
  | .fpush b => Laws.SourceForm.fpush b
  | .fend => Laws.SourceForm.fend
  | .carm => Laws.SourceForm.carm
  | .cbyte b => Laws.SourceForm.cbyte b
  | .crd => Laws.SourceForm.crd
  | .srd => Laws.SourceForm.srd
  | .reservedB => Laws.SourceForm.reservedB
  | .reservedC => Laws.SourceForm.reservedC
  | .reservedD => Laws.SourceForm.reservedD
  | .reservedE => Laws.SourceForm.reservedE
  | .reservedF => Laws.SourceForm.reservedF

/-- The line of every operation is well formed (R58). -/
theorem wellFormed_instr (i : Instr) : i.WellFormed = true := by
  obtain ⟨hwf, -⟩ := sourceForm i
  exact hwf

/-- Settles O1: the source line of every operation is well formed, and decoding reads back the two fields encoded. -/
theorem decodeEncodeGivesInstruction : Obligations.DecodeEncodeGivesInstruction := fun i =>
  ⟨wellFormed_instr i, decode_encode i⟩

/-- The four codes whose operation has an operand (R47). -/
def operandCodes : List (BitVec 4) := [0x2, 0x4, 0x5, 0x8]

/-- Each of the sixteen rows of R46 keeps its code. -/
theorem opcode_decodeFields (op : BitVec 4) (arg : Byte) : (decodeFields op arg).opcode = op := by
  obtain ⟨n⟩ := op
  fin_cases n <;> rfl

/-- Of the sixteen rows of R46 those with an operand keep `arg` as it stands (R47). -/
theorem argument_decodeFields (op : BitVec 4) (arg : Byte) :
    (decodeFields op arg).argument = if op ∈ operandCodes then arg else 0x00 := by
  obtain ⟨n⟩ := op
  fin_cases n <;> rfl

/-- Encoding a decoded word keeps its code, and its `arg` where the code has an operand (R47). -/
theorem encode_decode_commandWord (op : BitVec 4) (arg : Byte) :
    encode (decode (commandWord op arg)) = commandWord op (if op ∈ operandCodes then arg else 0x00) := by
  rw [decode_commandWord, encode, opcode_decodeFields, argument_decodeFields]

/-- Settles O2: a word is built from its fields, and the mask `0xF00` leaves it with `arg` zero. -/
theorem encodeDecodeGivesCanonicalWord : Obligations.EncodeDecodeGivesCanonicalWord := by
  intro w
  have canonical := encode_decode_commandWord (opField w) (argField w)
  rw [commandWord_fields] at canonical
  show encode (decode w) = if opField w ∈ operandCodes then w else w &&& 0xF00
  rw [canonical, and_opMask]
  split_ifs
  · exact commandWord_fields w
  · rfl

/-- A row of R46: a word matches a code under the mask exactly when it decodes to that row, with its own `arg`. -/
theorem and_opMask_eq_iff (op : BitVec 4) (w : CommandWord) :
    w &&& 0xF00 = commandWord op 0x00 ↔ decode w = decodeFields op (argField w) := by
  constructor
  · intro h
    have hop : opField w = op := by
      calc opField w = opField (w &&& 0xF00) := by rw [and_opMask, opField_commandWord]
        _ = op := by rw [h, opField_commandWord]
    rw [decode, hop]
  · intro h
    have hop : opField w = op := by
      calc opField w = (decode w).opcode := (opcode_decodeFields _ _).symm
        _ = op := by rw [h, opcode_decodeFields]
    rw [and_opMask, hop]

/-- Settles O3: `and_opMask_eq_iff` at each of the sixteen codes. -/
theorem operationMapByMaskAndMatch : Obligations.OperationMapByMaskAndMatch := fun w =>
  ⟨and_opMask_eq_iff 0x0 w, and_opMask_eq_iff 0x1 w, and_opMask_eq_iff 0x2 w, and_opMask_eq_iff 0x3 w,
    and_opMask_eq_iff 0x4 w, and_opMask_eq_iff 0x5 w, and_opMask_eq_iff 0x6 w, and_opMask_eq_iff 0x7 w,
    and_opMask_eq_iff 0x8 w, and_opMask_eq_iff 0x9 w, and_opMask_eq_iff 0xA w, and_opMask_eq_iff 0xB w,
    and_opMask_eq_iff 0xC w, and_opMask_eq_iff 0xD w, and_opMask_eq_iff 0xE w, and_opMask_eq_iff 0xF w⟩

/-- No two operations have one encoding (R58). -/
theorem encode_injective : Function.Injective encode :=
  Function.LeftInverse.injective decode_encode

/-- Where the code ignores `arg`, the assembler writes it as zero (R47). -/
theorem encode_decode_of_ignored {op : BitVec 4} (arg : Byte) (h : op ∉ operandCodes) :
    encode (decode (commandWord op arg)) = commandWord op 0x00 := by
  rw [encode_decode_commandWord, if_neg h]

/-- Settles O5: where `arg` is ignored the encoding tells that all its values are one operation. -/
theorem argumentUsedAsItStandsOrIgnored : Obligations.ArgumentUsedAsItStandsOrIgnored := by
  refine ⟨?used, ?same, fun op a h => encode_decode_of_ignored a h⟩
  case used =>
    intro a
    exact ⟨decode_commandWord 0x2 a, decode_commandWord 0x4 a, decode_commandWord 0x5 a, decode_commandWord 0x8 a⟩
  case same =>
    intro op a h
    exact encode_injective ((encode_decode_of_ignored a h).trans (encode_decode_of_ignored 0x00 h).symm)

/-- Settles O4: each word is the fields of its row of R46. -/
theorem writtenWordsDecode : Obligations.WrittenWordsDecode :=
  ⟨decode_commandWord 0x0 0x00, decode_commandWord 0x0 0xFF, decode_commandWord 0x1 0x00, decode_commandWord 0x2 0x81,
    decode_commandWord 0x3 0x00, decode_commandWord 0x4 0x31, decode_commandWord 0x5 0x43, decode_commandWord 0x6 0x00,
    decode_commandWord 0x7 0x00, decode_commandWord 0x8 0x06, decode_commandWord 0x9 0x00, decode_commandWord 0xA 0x00,
    decode_commandWord 0xB 0x00, decode_commandWord 0xC 0x37, decode_commandWord 0xF 0xFF⟩

end Sys2Proof.Machine
end

section
/-! PROOFS. The assembly text of a line reads back as that line (spec/30_encoding.md R58; log 8). -/

namespace Sys2Proof.Machine

/-- A hex digit reads back as the number it was written for, below 16. -/
theorem hexDigitValue_hexDigitText (v : Nat) : hexDigitValue (hexDigitText v) = some (v % 16) := by
  have digits : ∀ k < 16, hexDigitValue (hexDigits.getD k '0') = some k := by decide
  exact digits (v % 16) (Nat.mod_lt v (by omega))

/-- Two hex digits read back as the byte they were written for. -/
theorem parseOperand_byte {v : Nat} (h : v < 256) :
    parseOperand [' ', hexDigitText (v / 16), hexDigitText v] = some (some v) := by
  have value : 16 * (v / 16 % 16) + v % 16 = v := by omega
  simp only [parseOperand, hexDigitValue_hexDigitText, value]

/-- A line that begins with a mnemonic is read as that mnemonic: none before it in the list is a prefix of it. -/
theorem matchMnemonic_mnemonicText (m : Mnemonic) (rest : List Char) :
    matchMnemonic (mnemonicText m ++ rest) allMnemonics = some (m, rest) := by
  cases m <;> rfl

/-- A line that begins with a mnemonic is no raw word, and what follows the mnemonic is its operand. -/
theorem parseLine_mnemonicText (m : Mnemonic) (rest : List Char) :
    parseLine (mnemonicText m ++ rest) =
      ((parseOperand rest).map (SourceLine.operation m)).filter SourceLine.WellFormed := by
  cases m <;> rfl

/-- Three hex digits after `0x` are read as a raw word. -/
theorem parseLine_raw {w : Nat} (h : w < 4096) : parseLine (lineText (.raw w)) = some (.raw w) := by
  have value : 256 * (w / 256 % 16) + 16 * (w / 16 % 16) + w % 16 = w := by omega
  have wf : (SourceLine.raw w).WellFormed = true := decide_eq_true h
  simp only [parseLine, lineText, hexDigitValue_hexDigitText, value, Option.filter_some, wf, if_true]

/-- Every well-formed line reads back from its text. -/
theorem parseLine_lineText {l : SourceLine} (h : l.WellFormed = true) : parseLine (lineText l) = some l := by
  have checks := h
  simp only [SourceLine.WellFormed, Bool.and_eq_true] at checks
  obtain ⟨⟨-, hbyte⟩, hraw⟩ := checks
  match l with
  | .raw w => exact parseLine_raw (of_decide_eq_true hraw)
  | .operation m none =>
    have operand := parseLine_mnemonicText m []
    rw [List.append_nil] at operand
    simp only [lineText, operand, parseOperand, Option.map_some, Option.filter_some, h, if_true]
  | .operation m (some v) =>
    simp only [lineText, parseLine_mnemonicText, parseOperand_byte (of_decide_eq_true hbyte), Option.map_some,
      Option.filter_some, h, if_true]

/-- Settles O6: the line an operation is written as is well formed. -/
theorem assemblyTextReadsBack : Obligations.AssemblyTextReadsBack := fun i =>
  parseLine_lineText (wellFormed_instr i)

end Sys2Proof.Machine
end

section
/-! PROOFS. The responses a step appends (spec/30_encoding.md R50, R57). -/

namespace Sys2Proof.Machine

/-- One more response keeps the response invariant, if it carries a cause where it has the fault bit. -/
theorem State.ResponsesOk.snoc {s t : State} {r : Response} (h : s.ResponsesOk) (hrsp : t.rsp = s.rsp ++ [r])
    (hr : r.fault = true → r.data = BlockFault.opFault.code ∨ r.data = BlockFault.seqFault.code) : t.ResponsesOk := by
  intro q hq
  rw [hrsp, List.mem_append, List.mem_singleton] at hq
  rcases hq with hq | rfl
  · exact h q hq
  · exact hr

/-- Settles O38: a reset event appends no response, and of the effects only the two faults append one with the fault
bit. -/
theorem faultResponsesCarryACause : Obligations.FaultResponsesCarryACause := by
  intro s t
  refine step_keeps (fun _ _ h => h) (fun _ h => h) ?_
  intro i s t h e
  cases e with
  | opFault => exact h.snoc rfl fun _ => .inl rfl
  | seqFault => exact h.snoc rfl fun _ => .inr rfl
  | nop | xrd | crd | srd | xclr | xabs | fstart | fpush | fend | carm | cbyteFirst | cbyteLater =>
    exact h.snoc rfl nofun

end Sys2Proof.Machine
end

section
/-! PROOFS. The laws of `xor8` (spec/40_xcg_checksum.md R70, R72, R73) and what a frame's bytes XOR to (R78). -/

namespace Sys2Proof.Machine

/-- `xor8` splits over concatenation (R72). -/
theorem xor8_append (s t : List Byte) : xor8 (s ++ t) = xor8 s ^^^ xor8 t := by
  calc xor8 (s ++ t) = t.foldl (· ^^^ ·) (xor8 s ^^^ 0x00) := by
        rw [xor8, List.foldl_append]
        exact congrArg (t.foldl _) BitVec.xor_zero.symm
    _ = xor8 s ^^^ xor8 t := List.foldl_assoc

/-- The first byte of a sequence taken out of its `xor8`. -/
theorem xor8_cons (b : Byte) (s : List Byte) : xor8 (b :: s) = b ^^^ xor8 s := by
  have single : xor8 [b] = b := xor8_snoc [] b |>.trans BitVec.zero_xor
  calc xor8 (b :: s) = xor8 [b] ^^^ xor8 s := xor8_append [b] s
    _ = b ^^^ xor8 s := by rw [single]

/-- The order of the bytes plays no part (R72): XOR is associative and commutative. -/
theorem xor8_perm {s t : List Byte} (h : s.Perm t) : xor8 s = xor8 t :=
  h.foldl_eq 0x00

/-- A sequence with its own `xor8` appended XORs to zero (R72). -/
theorem xor8_append_xor8 (s : List Byte) : xor8 (s ++ [xor8 s]) = 0x00 :=
  (xor8_snoc s (xor8 s)).trans BitVec.xor_self

/-- A byte absorbed twice is ignored (R72). -/
theorem xor8_append_twice (s : List Byte) (b : Byte) : xor8 (s ++ [b, b]) = xor8 s := by
  rw [List.append_cons, xor8_snoc, xor8_snoc, BitVec.xor_assoc, BitVec.xor_self, BitVec.xor_zero]

/-- Each bit of `xor8` is the parity of that bit of the bytes (R70): a byte with the bit changes the parity, any other
leaves it. -/
theorem getLsbD_xor8 (s : List Byte) (i : Nat) :
    (xor8 s).getLsbD i = decide ((s.countP fun b => b.getLsbD i) % 2 = 1) := by
  induction s with
  | nil => exact BitVec.getLsbD_zero
  | cons b s ih =>
    rw [xor8_cons, BitVec.getLsbD_xor, ih, List.countP_cons]
    cases b.getLsbD i with
    | false => simp
    | true => simp [Nat.succ_mod_two_eq_one_iff, ← decide_not]

/-- XORing a mask onto one byte XORs it onto the checksum. -/
theorem xor8_set_xor (s : List Byte) (j : Nat) (m : Byte) (h : j < s.length) :
    xor8 (s.set j (s[j] ^^^ m)) = xor8 s ^^^ m := by
  induction s generalizing j with
  | nil => exact absurd h (Nat.not_lt_zero j)
  | cons b s ih =>
    cases j with
    | zero =>
      rw [List.set_cons_zero, List.getElem_cons_zero, xor8_cons, xor8_cons]
      ac_rfl
    | succ j =>
      rw [List.set_cons_succ, List.getElem_cons_succ, xor8_cons, xor8_cons, ih, BitVec.xor_assoc]

/-- One bit within a byte is a mask that is not zero. -/
theorem one_shiftLeft_ne_zero {i : Nat} (h : i < 8) : 1#8 <<< i ≠ 0#8 := by
  have masks : ∀ k < 8, 1#8 <<< k ≠ 0#8 := by decide
  exact masks i h

/-- XORing one mask onto two different bytes leaves the checksum as it was. -/
theorem xor8_set_xor_twice (s : List Byte) {j k : Nat} (m : Byte) (hj : j < s.length) (hk : k < s.length)
    (hjk : j ≠ k) :
    xor8 ((s.set j (s[j] ^^^ m)).set k (s[k] ^^^ m)) = xor8 s := by
  have second := xor8_set_xor (s.set j (s[j] ^^^ m)) k m (by rwa [List.length_set])
  rw [List.getElem_set_ne hjk, xor8_set_xor s j m hj] at second
  rw [second, BitVec.xor_assoc, BitVec.xor_self, BitVec.xor_zero]

/-- Settles O40: the recursion at the end, and the parity of each bit. -/
theorem checksumIsBitwiseParity : Obligations.ChecksumIsBitwiseParity :=
  ⟨rfl, xor8_snoc, getLsbD_xor8⟩

/-- Settles O41: the library's laws of XOR, and the laws of `xor8` above. -/
theorem checksumLaws : Obligations.ChecksumLaws :=
  ⟨fun a b c => ⟨BitVec.xor_assoc a b c, BitVec.xor_comm a b, BitVec.xor_zero, BitVec.xor_self⟩,
    fun _ _ => xor8_perm, xor8_append, xor8_append_xor8, xor8_append_twice⟩

/-- Settles O42: a flipped bit is a mask, not zero, XORed onto one byte. -/
theorem singleBitFlipIsDetected : Obligations.SingleBitFlipIsDetected := by
  refine ⟨?once, fun s j k i hj hk hjk _ => xor8_set_xor_twice s (1#8 <<< i) hj hk hjk⟩
  case once =>
    intro s j i h hi
    have flipped := xor8_set_xor s j (1#8 <<< i) h
    refine ⟨flipped, fun same => one_shiftLeft_ne_zero hi ?_⟩
    rw [flipped] at same
    simpa using same

/-- A frame is `SOH`, the covered bytes and their checksum (R55, R80). -/
theorem buildFrame_eq (d : Byte) (p : List Byte) :
    buildFrame d p = constants.soh :: (frameBody d p ++ [checksum d p]) := by
  simp [buildFrame, headerBytes, frameBody, openBody]

/-- Settles O45: the covered bytes with their `xor8` appended XOR to zero, and `SOH` stands before them. -/
theorem frameCheckProperty : Obligations.FrameCheckProperty := by
  intro d p
  have covered : xor8 (frameBody d p ++ [checksum d p]) = 0x00 := xor8_append_xor8 (frameBody d p)
  rw [buildFrame_eq]
  refine ⟨covered, ?_⟩
  rw [xor8_cons, covered]
  rfl

end Sys2Proof.Machine
end

section
/-! PROOFS. Running presented operations one by one (spec/10_state.md R22, spec/30_encoding.md R58). -/

namespace Sys2Proof.Machine

/-- A presented operation is the next to be carried out, and what stands behind it stays (R22, R58). -/
theorem run_presented_cons (i : Instr) {s t : State} (n : Nat) (ops : List Instr) (rest : List Input)
    (h : exec i s = .next t) :
    Machine.run (n + 1) { s with inputs := presented (i :: ops) ++ rest } =
      Machine.run n { t with inputs := presented ops ++ rest } := by
  refine run_succ_of_step n ?_
  calc step { s with inputs := presented (i :: ops) ++ rest }
      = exec (decode (encode i)) { s with inputs := presented ops ++ rest } := rfl
    _ = .next { t with inputs := presented ops ++ rest } := by
        rw [decode_encode]
        exact exec_ignores_inputs i _ h

end Sys2Proof.Machine
end

section
/-! PROOFS. The operations `XCLR`, `XABS` and `XRD`, and the `XSUM` sequence (spec/40_xcg_checksum.md R74 to R77). -/

namespace Sys2Proof.Machine

/-- Settles O14: the accepted and the refused `XCLR`. -/
theorem xclrClearsTheAccumulator : Obligations.XclrClearsTheAccumulator :=
  ⟨decode_commandWord 0x1, fun _ => execXclr_idle, fun _ => execXclr_opened⟩

/-- Settles O15: the accepted and the refused `XABS`. -/
theorem xabsAbsorbsOneByte : Obligations.XabsAbsorbsOneByte :=
  ⟨decode_commandWord 0x2, fun b _ => execXabs_idle b, fun b _ => execXabs_opened b⟩

/-- `XRD` (R76). -/
theorem execXrd_eq (s : State) : execXrd s = .next { s with rsp := s.rsp ++ [Response.mk false s.bcc] } := rfl

/-- Settles O16: `XRD` makes no phase check. -/
theorem xrdRespondsTheAccumulator : Obligations.XrdRespondsTheAccumulator :=
  ⟨decode_commandWord 0x3, execXrd_eq⟩

/-- The state after an `XABS` of each byte of `b`, all accepted (R75). -/
def State.absorbed (s : State) (b : List Byte) : State :=
  { s with bcc := s.bcc ^^^ xor8 b, rsp := s.rsp ++ List.replicate b.length (Response.mk false 0x00) }

/-- Absorbing nothing changes nothing. -/
theorem State.absorbed_nil (s : State) : s.absorbed [] = s := by
  simp [State.absorbed, xor8]

/-- Absorbing bytes begins with the first one. -/
theorem State.absorbed_cons (s : State) (c : Byte) (b : List Byte) :
    s.absorbed (c :: b) = ((s.setBcc (s.bcc ^^^ c)).respond false 0x00).absorbed b := by
  simp [State.absorbed, State.setBcc, State.respond, xor8_cons, BitVec.xor_assoc, List.replicate_succ]

/-- An `XABS` of each byte of `b`, from an idle framer; then the run goes on. -/
theorem run_presented_xabs {s : State} (b : List Byte) (n : Nat) (ops : List Instr) (rest : List Input)
    (h : s.fph = .idle) :
    Machine.run (b.length + n) { s with inputs := presented (b.map .xabs ++ ops) ++ rest } =
      Machine.run n { s.absorbed b with inputs := presented ops ++ rest } := by
  induction b generalizing s with
  | nil => rw [State.absorbed_nil, List.length_nil, Nat.zero_add]; rfl
  | cons c b ih =>
    rw [State.absorbed_cons, List.length_cons, Nat.add_right_comm]
    have one := run_presented_cons (.xabs c) (b.length + n) (b.map .xabs ++ ops) rest (execXabs_idle c h)
    exact one.trans (ih (s := (s.setBcc (s.bcc ^^^ c)).respond false 0x00) h)

/-- An `XABS` of each byte of `b` and an `XRD`, from an idle framer: the `XSUM` sequence without its `XCLR` (R77). -/
theorem run_presented_xabs_xrd {s : State} (b : List Byte) (rest : List Input) (h : s.fph = .idle) :
    Machine.run (b.length + 1) { s with inputs := presented (b.map .xabs ++ [.xrd]) ++ rest } = .next
      { s.absorbed b with
        inputs := rest
        rsp := (s.absorbed b).rsp ++ [Response.mk false (s.bcc ^^^ xor8 b)] } :=
  (run_presented_xabs b 1 [.xrd] rest h).trans (run_presented_cons .xrd 0 [] rest (execXrd_eq (s.absorbed b)))

/-- Settles O47: after the `XCLR` the bytes are absorbed into zero. -/
theorem xsumSequenceComputesTheChecksum : Obligations.XsumSequenceComputesTheChecksum := by
  refine ⟨?cleared, fun s b rest h => run_presented_xabs_xrd b rest h⟩
  case cleared =>
    intro s b rest h
    have clear := run_presented_cons .xclr (b.length + 1) (b.map .xabs ++ [.xrd]) rest (execXclr_idle h)
    have absorb := run_presented_xabs_xrd (s := (s.setBcc 0x00).respond false 0x00) b rest h
    refine (clear.trans absorb).trans ?_
    simp [State.absorbed, List.replicate_succ]

end Sys2Proof.Machine
end

section
/-! PROOFS. The framer's operations and its phase transitions (spec/41_frm_framer.md R83 to R86). -/

namespace Sys2Proof.Machine

/-- Settles O17: the accepted and the refused `FSTART`; the unmarked beats of the header are the five written out. -/
theorem fstartOpensAFrame : Obligations.FstartOpensAFrame :=
  ⟨decode_commandWord 0x4, fun d _ => execFstart_idle d, fun d _ => execFstart_opened d⟩

/-- Settles O18: the accepted and the refused `FPUSH`. -/
theorem fpushEmitsAndAbsorbs : Obligations.FpushEmitsAndAbsorbs :=
  ⟨decode_commandWord 0x5, fun b _ => execFpush_opened b, fun b _ => execFpush_idle b⟩

/-- Settles O19: the accepted and the refused `FEND`. -/
theorem fendClosesTheFrame : Obligations.FendClosesTheFrame :=
  ⟨decode_commandWord 0x6, fun _ => execFend_opened, fun _ => execFend_idle⟩

/-- Settles O34: the effect of an operation is its entry in the table. Only an accepted `FSTART` or `FEND` writes `FPH`; a
refused operation is one of the five pairs of `WrongPhase` or one of the five reserved codes. -/
theorem framerPhaseTransitions : Obligations.FramerPhaseTransitions := by
  intro i s
  obtain ⟨t, ht, e⟩ := exec_effect i s
  cases e with
  | fstart _ hp | fend hp | fpush _ hp | xclr hp | xabs _ hp =>
    exact ⟨_, _, ht, rfl, by rw [hp]; exact ⟨rfl, rfl⟩⟩
  | nop | xrd | crd | srd | carm | cbyteFirst | cbyteLater => exact ⟨_, _, ht, rfl, rfl, rfl⟩
  | seqFault h =>
    rcases h with ⟨hp, rfl | ⟨b, rfl⟩ | ⟨d, rfl⟩⟩ | ⟨hp, ⟨b, rfl⟩ | rfl⟩ <;>
      exact ⟨_, _, ht, rfl, by rw [hp]; exact ⟨rfl, rfl⟩⟩
  | opFault h =>
    simp only [reservedInstrs, List.mem_cons, List.not_mem_nil, or_false] at h
    rcases h with rfl | rfl | rfl | rfl | rfl <;> exact ⟨_, _, ht, rfl, rfl, rfl⟩

end Sys2Proof.Machine
end

section
/-! PROOFS. The layout of a frame and the closed form of its checksum (spec/41_frm_framer.md R80 to R82). -/

namespace Sys2Proof.Machine

/-- The checksum covers the payload and five bytes more (R80). -/
theorem length_frameBody (d : Byte) (p : List Byte) : (frameBody d p).length = p.length + 5 := by
  simp [frameBody, openBody]

/-- A frame is seven bytes longer than its payload (R81). -/
theorem length_buildFrame (d : Byte) (p : List Byte) : (buildFrame d p).length = p.length + 7 := by
  simp [buildFrame_eq, length_frameBody]

/-- The bytes the checksum covers, cut out of the frame (R81). -/
theorem take_drop_buildFrame (d : Byte) (p : List Byte) :
    ((buildFrame d p).drop 1).take (p.length + 5) = frameBody d p := by
  rw [buildFrame_eq, ← length_frameBody d p]
  exact List.take_left

/-- All of a frame but its checksum (R80). -/
theorem take_buildFrame (d : Byte) (p : List Byte) :
    (buildFrame d p).take (p.length + 6) = headerBytes d ++ p ++ [constants.etx] := by
  have hlen : (headerBytes d ++ p ++ [constants.etx]).length = p.length + 6 := by
    simp [headerBytes]
  have hframe : buildFrame d p = headerBytes d ++ p ++ [constants.etx] ++ [checksum d p] := by
    simp [buildFrame]
  rw [hframe, ← hlen]
  exact List.take_left

/-- The byte after the payload is `ETX` (R81). -/
theorem buildFrame_getElem?_etx (d : Byte) (p : List Byte) :
    (buildFrame d p)[p.length + 5]? = some constants.etx := by
  have hlen : (headerBytes d ++ p).length = p.length + 5 := by
    simp [headerBytes]
  rw [buildFrame, ← hlen]
  simp

/-- The last byte is the checksum (R81). -/
theorem buildFrame_getElem?_checksum (d : Byte) (p : List Byte) :
    (buildFrame d p)[p.length + 6]? = some (checksum d p) := by
  rw [buildFrame_eq, List.getElem?_cons_succ, ← length_frameBody d p, List.getElem?_concat_length]

/-- Settles O43: the header's bytes stand at the front by definition, the rest are the lemmas above. -/
theorem frameLayout : Obligations.FrameLayout := by
  intro d p
  have payload : ((buildFrame d p).drop 5).take p.length = p := List.take_left
  refine ⟨rfl, length_buildFrame d p, rfl, rfl, rfl, rfl, rfl, payload, buildFrame_getElem?_etx d p, ?_⟩
  rw [take_drop_buildFrame, buildFrame_getElem?_checksum]
  rfl

/-- The parity of an open frame is that of its header and that of its payload (R82). -/
theorem xor8_openBody (d : Byte) (p : List Byte) : xor8 (openBody d p) = xor8 (openBody d []) ^^^ xor8 p :=
  xor8_append (openBody d []) p

/-- The running parity after the header alone, with R5's values (R82). -/
theorem xor8_openBody_nil_eq (d : Byte) : xor8 (openBody d []) = d ^^^ 0xA3 := by
  rw [xor8_openBody_nil, BitVec.xor_assoc, BitVec.xor_assoc]
  rfl

/-- The checksum in closed form (R82). -/
theorem checksum_closed_form (d : Byte) (p : List Byte) : checksum d p = d ^^^ 0xA0 ^^^ xor8 p := by
  have hetx : (0xA0 : Byte) = 0xA3 ^^^ constants.etx := rfl
  rw [checksum_eq, xor8_openBody, xor8_openBody_nil_eq, hetx]
  ac_rfl

/-- Settles O44: the two constants are computed from R5's values, and `xor8` of the empty payload is zero. -/
theorem checksumClosedForm : Obligations.ChecksumClosedForm := fun d p =>
  ⟨rfl, rfl, checksum_closed_form d p, xor8_openBody_nil_eq d, (checksum_closed_form d []).trans BitVec.xor_zero⟩

end Sys2Proof.Machine
end

section
/-! PROOFS. The `FRAME` sequence (spec/41_frm_framer.md R87, its first sentence). -/

namespace Sys2Proof.Machine

/-- The state after an `FPUSH` of each byte of `p`, all accepted (R84). -/
def State.pushed (s : State) (p : List Byte) : State :=
  { s with
    tx := s.tx ++ plainBeats p
    bcc := s.bcc ^^^ xor8 p
    rsp := s.rsp ++ List.replicate p.length (Response.mk false 0x00) }

/-- Pushing nothing changes nothing. -/
theorem State.pushed_nil (s : State) : s.pushed [] = s := by
  simp [State.pushed, xor8, plainBeats]

/-- Pushing bytes begins with the first one. -/
theorem State.pushed_cons (s : State) (b : Byte) (p : List Byte) :
    s.pushed (b :: p) = (((s.txEmit b false).setBcc (s.bcc ^^^ b)).respond false 0x00).pushed p := by
  simp [State.pushed, State.txEmit, State.setBcc, State.respond, plainBeats, xor8_cons, BitVec.xor_assoc,
    List.replicate_succ]

/-- An `FPUSH` of each byte of `p`, with a frame open; then the run goes on. -/
theorem run_presented_fpush {s : State} (p : List Byte) (n : Nat) (ops : List Instr) (rest : List Input)
    (h : s.fph = .opened) :
    Machine.run (p.length + n) { s with inputs := presented (p.map .fpush ++ ops) ++ rest } =
      Machine.run n { s.pushed p with inputs := presented ops ++ rest } := by
  induction p generalizing s with
  | nil => rw [State.pushed_nil, List.length_nil, Nat.zero_add]; rfl
  | cons b p ih =>
    rw [State.pushed_cons, List.length_cons, Nat.add_right_comm]
    have one := run_presented_cons (.fpush b) (p.length + n) (p.map .fpush ++ ops) rest (execFpush_opened b h)
    exact one.trans (ih (s := ((s.txEmit b false).setBcc (s.bcc ^^^ b)).respond false 0x00) h)

/-- The state after an accepted `FSTART` (R83). -/
def State.started (s : State) (d : Byte) : State :=
  { s with
    tx := s.tx ++ plainBeats (headerBytes d)
    bcc := xor8 (openBody d [])
    fph := .opened
    rsp := s.rsp ++ [Response.mk false 0x00] }

/-- `FSTART` accepted, with the header's parity as the `xor8` of the bytes it covers (R83). -/
theorem execFstart_eq_started {s : State} (d : Byte) (h : s.fph = .idle) :
    execFstart d s = .next (s.started d) := by
  rw [execFstart_idle d h, State.started, xor8_openBody_nil]

/-- Settles O48: `FSTART`, the pushes and `FEND` are all accepted, and what they append and absorb is the frame and its
covered bytes. -/
theorem frameSequenceEmitsTheFrame : Obligations.FrameSequenceEmitsTheFrame := by
  intro s d p rest h
  have start := run_presented_cons (.fstart d) (p.length + 1) (p.map .fpush ++ [.fend]) rest (execFstart_eq_started d h)
  have push := run_presented_fpush (s := s.started d) p 1 [.fend] rest rfl
  have finish := run_presented_cons .fend 0 [] rest (execFend_opened (s := (s.started d).pushed p) rfl)
  refine (start.trans (push.trans finish)).trans ?_
  have bcc : ((s.started d).pushed p).bcc ^^^ constants.etx = checksum d p := by
    rw [checksum_eq, xor8_openBody]; rfl
  have responses (r : Response) : r :: (List.replicate p.length r ++ [r]) = List.replicate (p.length + 2) r := by
    rw [List.replicate_succ, List.replicate_succ']
  rw [bcc, take_buildFrame, run_zero]
  simp [State.pushed, State.started, plainBeats, presented, responses, h]

end Sys2Proof.Machine
end

section
/-! PROOFS. Other operations within a frame (spec/41_frm_framer.md R87, its second sentence, and R88). -/

namespace Sys2Proof.Machine

/-- The payload byte an operation offers to an open frame (R84). -/
def pushedByte : Instr → Option Byte
  | .fpush b => some b
  | _ => none

/-- Only `FPUSH` offers a byte. -/
theorem eq_fpush_of_pushedByte {i : Instr} {b : Byte} (h : pushedByte i = some b) : i = .fpush b := by
  cases i with
  | fpush c => rw [Option.some.inj h]
  | _ => cases h

/-- The frame of `d` is open with the payload `p` so far, begun after the beats `before`, and `BCC` is its parity. -/
structure State.FrameOpen (s : State) (before : List Beat) (d : Byte) (p : List Byte) : Prop where
  opened : s.fph = .opened
  beats : s.tx = before ++ plainBeats (headerBytes d ++ p)
  parity : s.bcc = xor8 (openBody d p)

/-- An accepted `FSTART` opens the frame, whatever the registers held (R83, R88). -/
theorem State.started_frameOpen (s : State) (d : Byte) : (s.started d).FrameOpen s.tx d [] :=
  ⟨rfl, by rw [List.append_nil]; rfl, rfl⟩

variable {s t : State} {before : List Beat} {d : Byte} {p : List Byte}

/-- `FPUSH` in an open frame makes its payload one byte longer (R84). -/
theorem State.FrameOpen.snoc (h : s.FrameOpen before d p) (b : Byte) (hopen : t.fph = .opened)
    (htx : t.tx = s.tx ++ [Beat.mk b false]) (hbcc : t.bcc = s.bcc ^^^ b) : t.FrameOpen before d (p ++ [b]) where
  opened := hopen
  beats := by rw [htx, h.beats, ← List.append_assoc, plainBeats_append _ [b], List.append_assoc]; rfl
  parity := by rw [hbcc, h.parity, openBody_snoc, xor8_snoc]

/-- In an open frame any other operation but `FEND`, accepted or refused, leaves the frame as it is (R87): those that would
not are refused there. -/
theorem State.FrameOpen.keep {i : Instr} (h : s.FrameOpen before d p) (e : Effect i s t) (hpush : pushedByte i = none)
    (hend : i ≠ .fend) : t.FrameOpen before d p := by
  obtain ⟨hopen, hbeats, hparity⟩ := h
  cases e with
  | fpush => cases hpush
  | fend => exact absurd rfl hend
  | xclr hidle | xabs _ hidle | fstart _ hidle => cases hopen.symm.trans hidle
  | opFault | seqFault | nop | xrd | crd | srd | carm | cbyteFirst | cbyteLater => exact ⟨hopen, hbeats, hparity⟩

/-- One operation other than `FEND` in an open frame: its byte, if it is an `FPUSH`, joins the payload. -/
theorem State.FrameOpen.exec (h : s.FrameOpen before d p) {i : Instr} (hend : i ≠ .fend) :
    ∃ t, Machine.exec i s = .next t ∧ t.FrameOpen before d (p ++ [i].filterMap pushedByte) := by
  cases hpush : pushedByte i with
  | none =>
    obtain ⟨t, ht, e⟩ := exec_effect i s
    refine ⟨t, ht, ?_⟩
    rw [List.filterMap_cons_none hpush, List.filterMap_nil, List.append_nil]
    exact h.keep e hpush hend
  | some b =>
    obtain rfl := eq_fpush_of_pushedByte hpush
    exact ⟨_, execFpush_opened b h.opened, h.snoc b h.opened rfl rfl⟩

/-- Operations other than `FEND` in an open frame: the bytes pushed join the payload; then the run goes on. -/
theorem State.FrameOpen.run (h : s.FrameOpen before d p) (ops : List Instr) (hend : .fend ∉ ops) :
    ∃ t : State, t.FrameOpen before d (p ++ ops.filterMap pushedByte) ∧ ∀ n more rest,
      Machine.run (ops.length + n) { s with inputs := presented (ops ++ more) ++ rest } =
        Machine.run n { t with inputs := presented more ++ rest } := by
  induction ops generalizing s p with
  | nil =>
    refine ⟨s, by rwa [List.filterMap_nil, List.append_nil], fun n more rest => ?_⟩
    rw [List.length_nil, Nat.zero_add]
    rfl
  | cons i ops ih =>
    rw [List.mem_cons, not_or] at hend
    obtain ⟨hi, hops⟩ := hend
    obtain ⟨u, hu, hframe⟩ := h.exec (Ne.symm hi)
    obtain ⟨t, ht, goesOn⟩ := ih hframe hops
    rw [List.append_assoc, ← List.filterMap_append] at ht
    refine ⟨t, ht, fun n more rest => ?_⟩
    rw [List.length_cons, Nat.add_right_comm]
    exact (run_presented_cons i (ops.length + n) (ops ++ more) rest hu).trans (goesOn n more rest)

/-- `FEND` on an open frame completes its beats and leaves its checksum in `BCC` (R85). -/
theorem State.FrameOpen.execFend (h : s.FrameOpen before d p) :
    ∃ t, Machine.execFend s = .next t ∧ t.tx = before ++ frameBeats d p ∧
      t.bcc = checksum d p ∧ t.fph = .idle := by
  refine ⟨_, execFend_opened h.opened, ?tx, ?bcc, rfl⟩
  case tx => simp [h.beats, h.parity, frameBeats, checksum_eq, plainBeats]
  case bcc => rw [h.parity, checksum_eq]

/-- Settles O49: `FSTART` opens the frame, the operations between keep it open with the bytes pushed, and `FEND` completes
it. -/
theorem frameSurvivesInterleaving : Obligations.FrameSurvivesInterleaving := by
  intro s d ops hidle hend
  obtain ⟨u, hu, between⟩ := (s.started_frameOpen d).run ops hend
  obtain ⟨t, ht, htx, hbcc, hfph⟩ := hu.execFend
  have start := run_presented_cons (.fstart d) (ops.length + 1) (ops ++ [.fend]) [] (execFstart_eq_started d hidle)
  have finish := run_presented_cons .fend 0 [] [] ht
  have whole := start.trans ((between 1 [.fend] []).trans finish)
  rw [List.append_nil] at whole
  exact ⟨{ t with inputs := [] }, whole, htx, hbcc, hfph⟩

end Sys2Proof.Machine
end

section
/-! PROOFS. The classifier's functions and operations (spec/42_cls_classifier.md R95 to R99). -/

namespace Sys2Proof.Machine

/-- A byte that is neither code is indeterminate (R95). -/
theorem classify_other {b : Byte} (hack : b ≠ 0x06) (hnak : b ≠ 0x15) : classify b = .indet :=
  (if_neg hack).trans (if_neg hnak)

/-- Settles O46: the two codes have their classes by R5's values, and every other byte is `classify_other`. -/
theorem classifiedByFirstByte : Obligations.ClassifiedByFirstByte := by
  refine ⟨fun b => ?byte, rfl, fun _ _ => rfl⟩
  case byte =>
    by_cases hack : b = 0x06
    · subst hack; decide
    by_cases hnak : b = 0x15
    · subst hnak; decide
    rw [classify_other hack hnak]
    exact ⟨iff_of_false nofun hack, iff_of_false nofun hnak, iff_of_true rfl ⟨hack, hnak⟩⟩

/-- `CARM` (R97). -/
theorem execCarm_eq (s : State) :
    execCarm s = .next { s with seen := false, cls := .indet, rsp := s.rsp ++ [Response.mk false 0x00] } := rfl

/-- `CBYTE` with the first byte of a window (R98). -/
theorem execCbyte_first {s : State} (b : Byte) (h : s.seen = false) :
    execCbyte b s = .next
      { s with seen := true, cls := classify b, rsp := s.rsp ++ [Response.mk false 0x00] } := by
  rw [execCbyte, State.takeByte_first b h]; rfl

/-- `CBYTE` with a later byte of a window (R98). -/
theorem execCbyte_later {s : State} (b : Byte) (h : s.seen = true) :
    execCbyte b s = .next { s with rsp := s.rsp ++ [Response.mk false 0x00] } := by
  rw [execCbyte, State.takeByte_later b h]; rfl

/-- `CRD` (R99). -/
theorem execCrd_eq (s : State) :
    execCrd s = .next { s with rsp := s.rsp ++ [Response.mk false (classData s.cls)] } := rfl

/-- Settles O20: `CARM` makes no phase check. -/
theorem carmOpensAWindow : Obligations.CarmOpensAWindow :=
  ⟨decode_commandWord 0x7, execCarm_eq⟩

/-- Settles O21: the first and the later byte of a window. -/
theorem cbyteClassifiesTheFirstByte : Obligations.CbyteClassifiesTheFirstByte :=
  ⟨decode_commandWord 0x8, fun b _ => execCbyte_first b, fun b _ => execCbyte_later b⟩

/-- Settles O22: `CRD` responds `classData`, computed for each of the three classes. -/
theorem crdRespondsTheClass : Obligations.CrdRespondsTheClass := by
  have responds {s : State} {c : ResponseClass} (h : s.cls = c) :
      execCrd s = .next { s with rsp := s.rsp ++ [Response.mk false (classData c)] } :=
    h ▸ execCrd_eq s
  exact ⟨decode_commandWord 0x9, ⟨rfl, rfl, rfl⟩, fun c => ⟨c.code_ne_three, classData_eq_zeroExtend c⟩,
    fun _ => responds, fun _ => responds, fun _ => responds⟩

end Sys2Proof.Machine
end

section
/-! PROOFS. The classifier and the framer do not touch each other's state (spec/42_cls_classifier.md R104). -/

namespace Sys2Proof.Machine

/-- An effect is what `exec` does: the converse of `effect_of_exec`. -/
theorem Effect.exec_eq {i : Instr} {s t : State} (e : Effect i s t) : exec i s = .next t := by
  cases e with
  | opFault h =>
    simp only [reservedInstrs, List.mem_cons, List.not_mem_nil, or_false] at h
    rcases h with rfl | rfl | rfl | rfl | rfl <;> rfl
  | seqFault h =>
    rcases h with ⟨hp, rfl | ⟨b, rfl⟩ | ⟨d, rfl⟩⟩ | ⟨hp, ⟨b, rfl⟩ | rfl⟩
    · exact execXclr_opened hp
    · exact execXabs_opened b hp
    · exact execFstart_opened d hp
    · exact execFpush_idle b hp
    · exact execFend_idle hp
  | nop | xrd | crd | srd | carm => rfl
  | xclr hp => exact execXclr_idle hp
  | xabs b hp => exact execXabs_idle b hp
  | fstart d hp => exact execFstart_idle d hp
  | fpush b hp => exact execFpush_opened b hp
  | fend hp => exact execFend_opened hp
  | cbyteFirst b hs => exact execCbyte_first b hs
  | cbyteLater b hs => exact execCbyte_later b hs

/-- The operations of XCG and of FRM (R46). -/
def ChecksumOrFramer (i : Instr) : Prop :=
  i = .xclr ∨ (∃ b, i = .xabs b) ∨ i = .xrd ∨ (∃ d, i = .fstart d) ∨ (∃ b, i = .fpush b) ∨ i = .fend

/-- Only `CARM` and `CBYTE` write the window (R31). -/
theorem Effect.window_eq {i : Instr} {s t : State} (e : Effect i s t) (hcarm : i ≠ .carm)
    (hbyte : ∀ b, i ≠ .cbyte b) : t.seen = s.seen ∧ t.cls = s.cls := by
  by_contra hne
  rcases e.carm_or_cbyte_of_window_ne (Decidable.not_and_iff_not_or_not.mp hne) with h | ⟨b, h⟩
  · exact hcarm h
  · exact hbyte b h

/-- What a checksum or framer operation does is the same whatever the window holds (R104). -/
theorem Effect.ignores_window {i : Instr} {s t : State} (e : Effect i s t) (hi : ChecksumOrFramer i) (seen : Bool)
    (cls : ResponseClass) : Effect i { s with seen := seen, cls := cls } { t with seen := seen, cls := cls } := by
  cases e with
  | opFault h => exact .opFault h
  | seqFault h => exact .seqFault h
  | nop => exact .nop
  | xrd => exact .xrd
  | xclr h => exact .xclr h
  | xabs b h => exact .xabs b h
  | fstart d h => exact .fstart d h
  | fpush b h => exact .fpush b h
  | fend h => exact .fend h
  | crd | srd | carm | cbyteFirst | cbyteLater => simp [ChecksumOrFramer] at hi

/-- Settles O35: the classifier's three operations answer the records above, and the effect of a checksum or framer
operation neither touches the window nor depends on it. -/
theorem classifierAndFramerAreIndependent : Obligations.ClassifierAndFramerAreIndependent := by
  refine ⟨?classifier, ?framer⟩
  case classifier =>
    rintro i s (rfl | ⟨b, rfl⟩ | rfl)
    · exact ⟨_, _, execCarm_eq s, rfl, rfl, rfl, rfl, rfl, rfl⟩
    · cases hs : s.seen with
      | false => exact ⟨_, _, execCbyte_first b hs, rfl, rfl, rfl, rfl, rfl, rfl⟩
      | true => exact ⟨_, _, execCbyte_later b hs, rfl, rfl, rfl, rfl, rfl, rfl⟩
    · exact ⟨_, _, execCrd_eq s, rfl, rfl, rfl, rfl, rfl, rfl⟩
  case framer =>
    intro i s seen cls (hi : ChecksumOrFramer i)
    obtain ⟨t, ht, e⟩ := exec_effect i s
    have noCarm : i ≠ .carm := by rintro rfl; simp [ChecksumOrFramer] at hi
    have noByte : ∀ b, i ≠ .cbyte b := by rintro b rfl; simp [ChecksumOrFramer] at hi
    obtain ⟨hseen, hcls⟩ := e.window_eq noCarm noByte
    exact ⟨t, ht, hseen, hcls, (e.ignores_window hi seen cls).exec_eq⟩

end Sys2Proof.Machine
end

section
/-! PROOFS. The bytes of a window, and the `CLASSIFY` sequence (spec/42_cls_classifier.md R100). -/

namespace Sys2Proof.Machine

/-- The registers of the window are those of one given the bytes `r` since its `CARM` (R97, R98). -/
structure State.HasWindow (s : State) (r : List Byte) : Prop where
  seen : s.seen = !r.isEmpty
  cls : s.cls = classifyRead r

/-- `CBYTE` in a window given `r`: the class is that of all the bytes, whichever of them came first (R96, R98). -/
theorem State.HasWindow.execCbyte {s : State} {r : List Byte} (h : s.HasWindow r) (b : Byte) :
    execCbyte b s = .next
      { s with seen := true, cls := classifyRead (r ++ [b]), rsp := s.rsp ++ [Response.mk false 0x00] } := by
  cases r with
  | nil => exact execCbyte_first b h.seen
  | cons c r =>
    have hseen : s.seen = true := h.seen
    have hcls : classifyRead (c :: r ++ [b]) = s.cls := h.cls.symm
    rw [execCbyte_later b hseen, hcls, ← hseen]

/-- The state after `CARM` and a `CBYTE` of each byte of `r` (R97, R98). -/
def State.armed (s : State) (r : List Byte) : State :=
  { s with
    seen := !r.isEmpty
    cls := classifyRead r
    rsp := s.rsp ++ List.replicate (r.length + 1) (Response.mk false 0x00) }

/-- The window of the state after `CARM` and the bytes `r`. -/
theorem State.armed_hasWindow (s : State) (r : List Byte) : (s.armed r).HasWindow r := ⟨rfl, rfl⟩

/-- `CBYTE` gives the window one byte more (R98). -/
theorem execCbyte_armed (s : State) (r : List Byte) (b : Byte) :
    execCbyte b (s.armed r) = .next (s.armed (r ++ [b])) := by
  rw [(s.armed_hasWindow r).execCbyte b]
  simp [State.armed, List.replicate_succ']

/-- A `CBYTE` of each byte of `bs` in a window given `r`; then the run goes on. -/
theorem run_presented_cbyte (s : State) (r bs : List Byte) (n : Nat) (ops : List Instr) (rest : List Input) :
    Machine.run (bs.length + n) { s.armed r with inputs := presented (bs.map .cbyte ++ ops) ++ rest } =
      Machine.run n { s.armed (r ++ bs) with inputs := presented ops ++ rest } := by
  induction bs generalizing r with
  | nil => rw [List.append_nil, List.length_nil, Nat.zero_add]; rfl
  | cons b bs ih =>
    rw [List.append_cons, List.length_cons, Nat.add_right_comm]
    have one := run_presented_cons (.cbyte b) (bs.length + n) (bs.map .cbyte ++ ops) rest (execCbyte_armed s r b)
    exact one.trans (ih (r ++ [b]))

/-- Settles O50: `CARM` opens an empty window, the bytes of `r` make it the window of `r`, and `CRD` responds its class. -/
theorem classifySequenceClassifiesTheRead : Obligations.ClassifySequenceClassifiesTheRead := by
  intro s r rest
  have arm := run_presented_cons .carm (r.length + 1) (r.map .cbyte ++ [.crd]) rest (t := s.armed []) (execCarm_eq s)
  have bytes := run_presented_cbyte s [] r 1 [.crd] rest
  have read := run_presented_cons .crd 0 [] rest (execCrd_eq (s.armed r))
  rw [← classData_eq_zeroExtend]
  exact arm.trans (bytes.trans read)

end Sys2Proof.Machine
end

section
/-! PROOFS. A window's class depends on nothing but the bytes given to it (spec/42_cls_classifier.md R103). -/

namespace Sys2Proof.Machine

/-- The byte an operation gives to the window (R98). -/
def givenByte : Instr → Option Byte
  | .cbyte b => some b
  | _ => none

/-- Only `CBYTE` gives a byte. -/
theorem eq_cbyte_of_givenByte {i : Instr} {b : Byte} (h : givenByte i = some b) : i = .cbyte b := by
  cases i with
  | cbyte c => rw [Option.some.inj h]
  | _ => cases h

/-- One operation other than `CARM`: its byte, if it is a `CBYTE`, joins the window's (R98, R31). -/
theorem State.HasWindow.exec {s : State} {r : List Byte} (h : s.HasWindow r) {i : Instr} (hcarm : i ≠ .carm) :
    ∃ t, Machine.exec i s = .next t ∧ t.HasWindow (r ++ [i].filterMap givenByte) := by
  cases hgiven : givenByte i with
  | none =>
    obtain ⟨t, ht, e⟩ := exec_effect i s
    have noByte : ∀ b, i ≠ .cbyte b := by rintro b rfl; cases hgiven
    obtain ⟨hseen, hcls⟩ := e.window_eq hcarm noByte
    rw [List.filterMap_cons_none hgiven, List.filterMap_nil, List.append_nil]
    exact ⟨t, ht, hseen.trans h.seen, hcls.trans h.cls⟩
  | some b =>
    obtain rfl := eq_cbyte_of_givenByte hgiven
    exact ⟨_, h.execCbyte b, by simp [givenByte], rfl⟩

/-- Operations other than `CARM`: the bytes they give join the window's. -/
theorem State.HasWindow.run {s : State} {r : List Byte} (h : s.HasWindow r) (ops : List Instr) (hcarm : .carm ∉ ops) :
    ∃ t : State, t.HasWindow (r ++ ops.filterMap givenByte) ∧ ∀ rest,
      Machine.run ops.length { s with inputs := presented ops ++ rest } = .next { t with inputs := rest } := by
  induction ops generalizing s r with
  | nil => exact ⟨s, by rwa [List.filterMap_nil, List.append_nil], fun _ => rfl⟩
  | cons i ops ih =>
    rw [List.mem_cons, not_or] at hcarm
    obtain ⟨hi, hops⟩ := hcarm
    obtain ⟨u, hu, hwindow⟩ := h.exec (Ne.symm hi)
    obtain ⟨t, ht, goesOn⟩ := ih hwindow hops
    rw [List.append_assoc, ← List.filterMap_append] at ht
    exact ⟨t, ht, fun rest => (run_presented_cons i ops.length ops rest hu).trans (goesOn rest)⟩

/-- Settles O51: `CARM` opens an empty window, whatever it finds, and the operations after it make it the window of the
bytes they give. -/
theorem windowsArePure : Obligations.WindowsArePure := by
  intro s ops hcarm
  obtain ⟨t, hwindow, after⟩ := (s.armed_hasWindow []).run ops hcarm
  have arm := run_presented_cons .carm ops.length ops [] (t := s.armed []) (execCarm_eq s)
  have whole := arm.trans (after [])
  rw [List.append_nil] at whole
  exact ⟨{ t with inputs := [] }, whole, hwindow.cls⟩

end Sys2Proof.Machine
end

section
/-! PROOFS. The control operations: `NOP`, `SRD` with the value of `STAT`, and the reserved codes (spec/43_system.md R110 to
R112). -/

namespace Sys2Proof.Machine

/-- `NOP` (R110). -/
theorem execNop_eq (s : State) : execNop s = .next { s with rsp := s.rsp ++ [Response.mk false 0x00] } := rfl

/-- Settles O13: `NOP` makes no phase check. -/
theorem nopOnlyResponds : Obligations.NopOnlyResponds :=
  ⟨decode_commandWord 0x0, execNop_eq⟩

/-- `SRD` (R111). -/
theorem execSrd_eq (s : State) : execSrd s = .next { s with rsp := s.rsp ++ [Response.mk false (stat s)] } := rfl

/-- An append weighs its high part by the width of the low one. -/
theorem toNat_append_eq_add {m n : Nat} (x : BitVec m) (y : BitVec n) :
    (x ++ y).toNat = x.toNat * 2 ^ n + y.toNat := by
  rw [BitVec.toNat_append, ← Nat.shiftLeft_add_eq_or_of_lt y.isLt, Nat.shiftLeft_eq]

/-- `STAT` as a number: each of its fields by its weight (R18). -/
theorem toNat_stat (s : State) : (stat s).toNat =
    16 * s.cls.code.toNat + 8 * s.seen.toNat + 4 * s.fph.bit.toNat + 2 * s.eSeq.toNat + s.eOp.toNat := by
  simp only [stat, toNat_append_eq_add, BitVec.toNat_ofBool, BitVec.toNat_ofNat]
  omega

/-- The largest class code is that of `NAK` (R62). -/
theorem ResponseClass.toNat_code_le (c : ResponseClass) : c.code.toNat ≤ 2 := by
  have hne := c.code_ne_three
  bv_omega

/-- `STAT` is largest with the class `NAK` and its four low bits set (R111). -/
theorem toNat_stat_le (s : State) : (stat s).toNat ≤ 0x2F := by
  have hcls := s.cls.toNat_code_le
  have hseen := s.seen.toNat_le
  have hfph := s.fph.bit.isLt
  have heSeq := s.eSeq.toNat_le
  have heOp := s.eOp.toNat_le
  rw [toNat_stat]
  omega

/-- Settles O23: `SRD` responds `STAT`, and `STAT` has the value and the bound of its fields. -/
theorem srdRespondsTheStatus : Obligations.SrdRespondsTheStatus :=
  ⟨decode_commandWord 0xA, execSrd_eq, toNat_stat, toNat_stat_le⟩

/-- The reserved operations are those with a code from `0xB` on (R56). -/
theorem mem_reservedInstrs_iff (i : Instr) : i ∈ reservedInstrs ↔ 0xB ≤ i.opcode.toNat := by
  cases i <;> simp [reservedInstrs, Instr.opcode]

/-- A word with a code from `0xB` on is a reserved operation, whatever its `arg` (R56). -/
theorem decode_mem_reservedInstrs {op : BitVec 4} (arg : Byte) (h : 0xB ≤ op.toNat) :
    decode (commandWord op arg) ∈ reservedInstrs := by
  rwa [mem_reservedInstrs_iff, decode_commandWord, opcode_decodeFields]

/-- Settles O25: a reserved operation has the effect `OpFault` in any state, and decoding keeps the code of a word. -/
theorem reservedCodesTakeOpFault : Obligations.ReservedCodesTakeOpFault :=
  ⟨fun _ _ h => (Effect.opFault h).exec_eq, fun _ arg h => decode_mem_reservedInstrs arg h, rfl⟩

end Sys2Proof.Machine
end

section
/-! PROOFS. The host's reading of a status: its hex digits and `decode_status` (spec/49_host_environment.md R132 to
R134). -/

namespace Sys2Proof.Machine.Exchange

/-- Settles O54: each of the three ranges of `hexval` gives its digits, and a byte outside them is none. -/
theorem hexDigitsAreExactlyThese : Obligations.HexDigitsAreExactlyThese := by
  intro b v
  unfold hexval
  split_ifs with decimal capital small
  · rw [Option.some_inj]; omega
  · rw [Option.some_inj]; omega
  · rw [Option.some_inj]; omega
  · rw [false_iff]; omega

/-- A hex digit is below 16 (R134). -/
theorem hexval_lt {b : Byte} {v : Nat} (h : hexval b = some v) : v < 16 := by
  have := (hexDigitsAreExactlyThese b v).mp h
  omega

/-- A status of fewer than five bytes is malformed, whatever its bytes (R133). -/
theorem decodeStatus_short : ∀ {s : List Byte}, s.length < 5 → decodeStatus s = .error .malformedStatus
  | [], _ => rfl
  | [_], _ => rfl
  | [_, _], _ => rfl
  | [_, _, _], _ => rfl
  | [_, _, _, _], _ => rfl
  | _ :: _ :: _ :: _ :: _ :: _, h => by simp only [List.length_cons] at h; omega

/-- One byte of the first four that is no hex digit makes the status invalid (R133). -/
theorem decodeStatus_invalid (a b c d e : Byte) (more : List Byte)
    (h : hexval a = none ∨ hexval b = none ∨ hexval c = none ∨ hexval d = none) :
    decodeStatus (a :: b :: c :: d :: e :: more) = .error .invalidDigits := by
  simp only [decodeStatus]
  split
  next ha hb hc hd => simp [ha, hb, hc, hd] at h
  next => rfl

/-- Settles O53: the length comes first, then the four digits, each below 16. -/
theorem statusDecodes : Obligations.StatusDecodes := by
  refine ⟨fun _ => decodeStatus_short, decodeStatus_invalid, fun a b c d e more w x y z ha hb hc hd => ⟨?_, ?_⟩⟩
  · simp only [decodeStatus, ha, hb, hc, hd]
  · have hw := hexval_lt ha
    have hx := hexval_lt hb
    have hy := hexval_lt hc
    have hz := hexval_lt hd
    omega

end Sys2Proof.Machine.Exchange
end

section
/-! PROOFS. The host drives the block: `send` and the classification of a read (spec/49_host_environment.md R123). -/

namespace Sys2Proof.Machine.Exchange

/-- With nothing pending the block runs the host's operations and no more (R22, R120). -/
theorem drive_of_run {s t : State} {ops : List Instr} (hs : s.inputs = [])
    (h : Machine.run ops.length { s with inputs := presented ops ++ [] } = .next t) : drive ops s = .ok t := by
  rw [List.append_nil] at h
  simp only [drive, hs, List.nil_append]
  rw [presented, List.length_map, ← presented, h]

/-- What the host's `FRAME` sequence leaves in the block (R87). -/
theorem drive_expandFrame {s : State} (d : Byte) (p : List Byte) (hs : s.inputs = []) (hidle : s.fph = .idle) :
    ∃ t, drive (expandFrame d p) s = .ok t ∧ t.tx = s.tx ++ frameBeats d p ∧
      t.inputs = [] ∧ t.fph = .idle ∧ t.bcc = checksum d p := by
  have hlen : (expandFrame d p).length = p.length + 2 := by simp [expandFrame]
  have hrun := frameSequenceEmitsTheFrame s d p [] hidle
  rw [← hlen] at hrun
  refine ⟨_, drive_of_run hs hrun, ?_, rfl, hidle, rfl⟩
  rw [hlen, take_buildFrame, List.append_assoc]
  rfl

/-- What the host's `CLASSIFY` sequence leaves in the block: the class in the last response, and the framer's registers
and `TX` as they were (R100). -/
theorem drive_expandClassify {s : State} (r : List Byte) (hs : s.inputs = []) :
    ∃ t, drive (expandClassify r) s = .ok t ∧
      t.rsp.getLast? = some (Response.mk false (classData (classifyRead r))) ∧
      t.inputs = [] ∧ t.fph = s.fph ∧ t.bcc = s.bcc ∧ t.tx = s.tx := by
  have hlen : (expandClassify r).length = r.length + 2 := by simp [expandClassify]
  have hrun := classifySequenceClassifiesTheRead s r []
  rw [← hlen, ← classData_eq_zeroExtend] at hrun
  exact ⟨_, drive_of_run hs hrun, List.getLast?_concat, rfl, rfl, rfl, rfl⟩

/-- Unmarked beats and a marked one: the host collects all their bytes (R123). -/
theorem bytesThroughLast_plainBeats (bs : List Byte) (c : Byte) :
    bytesThroughLast (plainBeats bs ++ [Beat.mk c true]) = bs ++ [c] := by
  induction bs with
  | nil => rfl
  | cons b bs ih => exact congrArg (b :: ·) ih

/-- The bytes the host collects from a frame's beats are the frame (R80, R123). -/
theorem bytesThroughLast_frameBeats (d : Byte) (p : List Byte) :
    bytesThroughLast (frameBeats d p) = buildFrame d p := by
  rw [frameBeats, bytesThroughLast_plainBeats]
  simp [buildFrame]

/-- With nothing pending and an idle framer, `send` is one write of the frame, and the block ends idle with the checksum
in `BCC` (R87, R123). -/
theorem send_eq_write (d : Byte) (p : List Byte) {w : World} (hs : w.block.inputs = []) (hidle : w.block.fph = .idle) :
    ∃ block, send d p w = (transportWrite (buildFrame d p) w.transport).map (World.mk block) ∧
      block.inputs = [] ∧ block.fph = .idle ∧ block.bcc = checksum d p := by
  obtain ⟨block, hdrive, htx, hblock⟩ := drive_expandFrame d p hs hidle
  refine ⟨block, ?_, hblock⟩
  simp only [send, hdrive, htx, List.drop_left, bytesThroughLast_frameBeats]
  cases transportWrite (buildFrame d p) w.transport <;> rfl

/-- Settles O55: the transport takes or refuses the `n + 7` bytes of the frame the block emitted. -/
theorem sendWritesTheFrameOnce : Obligations.SendWritesTheFrameOnce := by
  constructor
  · intro d p w hs hidle htakes
    obtain ⟨block, hsend, hblock⟩ := send_eq_write d p hs hidle
    rw [← length_buildFrame d p] at htakes
    rw [transportWrite_of_takesWhole htakes] at hsend
    exact ⟨_, hsend, rfl, hblock⟩
  · intro d p w hs hidle htakes
    obtain ⟨block, hsend, -⟩ := send_eq_write d p hs hidle
    rw [← length_buildFrame d p] at htakes
    rwa [transportWrite_of_not_takesWhole htakes] at hsend

/-- The class code in the data of a `CRD` response reads back as the class (R62, R99). -/
theorem ofCode_classData (c : ResponseClass) : ResponseClass.ofCode ((classData c).extractLsb' 0 2) = some c := by
  cases c <;> decide

/-- Settles O56: the last response is the one of `CRD`, whose code reads back as the class. -/
theorem hostReadsTheClass : Obligations.HostReadsTheClass := by
  intro r w hs
  obtain ⟨block, hdrive, hlast, hblock⟩ := drive_expandClassify r hs
  refine ⟨block, ?_, hblock⟩
  simp only [classifyWithBlock, hdrive, hlast, ofCode_classData]

end Sys2Proof.Machine.Exchange
end

section
/-! PROOFS. What an exchange does to the transport, whatever the block holds and the transport answers, and the bound on
its reads and waits (spec/49_host_environment.md R121, R126, R136). -/

namespace Sys2Proof.Machine.Exchange

/-- A read takes the script's next answer and is counted (R121). -/
theorem eq_of_transportRead {max : Nat} {t t' : Transport} {r : ReadResult} (h : transportRead max t = .ok (r, t')) :
    t' = { t with reads := t.reads.tail, readsMade := t.readsMade + 1 } := by
  cases hr : t.reads with
  | nil =>
    cases (transportRead_nil max hr).symm.trans h
    rw [hr]; rfl
  | cons a rest =>
    cases a with
    | exception =>
      cases (transportRead_exception max hr).symm.trans h
      rfl
    | bytes s =>
      by_cases hl : s.length ≤ max
      · cases (transportRead_bytes hr hl).symm.trans h
        rfl
      · cases (transportRead_tooLong hr (Nat.lt_of_not_le hl)).symm.trans h

/-- A read of the loop takes the script's next answer and is counted; an exception is logged besides (R126, R127). -/
theorem eq_of_readOrEmpty {max : Nat} {t t' : Transport} {s : List Byte} (h : readOrEmpty max t = .ok (s, t')) :
    ∃ errors, t' = { t with reads := t.reads.tail, readsMade := t.readsMade + 1, readErrors := errors } := by
  unfold readOrEmpty at h
  split at h
  next hr =>
    cases h
    exact ⟨t.readErrors, eq_of_transportRead hr⟩
  next u hr =>
    cases h
    exact ⟨u.readErrors + 1, by rw [eq_of_transportRead hr]⟩
  next => cases h

/-- A write makes no read and no wait (R121). -/
theorem frame_of_transportWrite {s : List Byte} {t t' : Transport} (h : transportWrite s t = .ok t') :
    t'.readsMade = t.readsMade ∧ t'.waits = t.waits := by
  by_cases ht : t.TakesWhole s.length
  · cases (transportWrite_of_takesWhole ht).symm.trans h
    exact ⟨rfl, rfl⟩
  · cases (transportWrite_of_not_takesWhole ht).symm.trans h

/-- `send` makes no read and no wait, whatever the block answers (R123). -/
theorem frame_of_send {d : Byte} {p : List Byte} {w sent : World} (h : send d p w = .ok sent) :
    sent.transport.readsMade = w.transport.readsMade ∧ sent.transport.waits = w.transport.waits := by
  unfold send at h
  split at h
  next => cases h
  next =>
    split at h
    next => cases h
    next hw =>
      cases h
      exact frame_of_transportWrite hw

/-- Classification leaves the transport alone, whatever the block answers (R123). -/
theorem transport_eq_of_classifyWithBlock {r : List Byte} {w v : World} {c : ResponseClass}
    (h : classifyWithBlock r w = .ok (c, v)) : v.transport = w.transport := by
  unfold classifyWithBlock at h
  split at h
  next => cases h
  next =>
    split at h
    next => cases h
    next =>
      split at h
      next => cases h; rfl
      next => cases h

/-! ### The read loop -/

/-- One turn of the read loop: a wait, one read, and the loop from that read with `n` retries left (R126). -/
def readAndAwait (prm : HostParameters) (n ms : Nat) (w : World) : Except Unspecified (ExchangeOutcome × World) :=
  match readOrEmpty prm.readMax (pause ms w.transport) with
  | .error e => .error e
  | .ok (r, t) => awaitResponse prm n r (World.mk w.block t)

/-- A turn of the loop whose read gives the bytes `r` (R126). -/
theorem readAndAwait_of_read {prm : HostParameters} {ms : Nat} {w : World} {r : List Byte} {t : Transport} (n : Nat)
    (h : readOrEmpty prm.readMax (pause ms w.transport) = .ok (r, t)) :
    readAndAwait prm n ms w = awaitResponse prm n r (World.mk w.block t) := by
  rw [readAndAwait, h]

/-- `issue` sends once and enters the read loop, the settle time before its first read (R125, R126). -/
theorem issue_of_send {prm : HostParameters} {d : Byte} {p : List Byte} {w sent : World} (h : send d p w = .ok sent) :
    issue prm d p w = readAndAwait prm prm.maxRetries prm.initialSettle sent := by
  rw [issue, h]; rfl

/-- An exchange that ends has sent its frame. -/
theorem send_of_issue {prm : HostParameters} {d : Byte} {p : List Byte} {w w' : World} {o : ExchangeOutcome}
    (h : issue prm d p w = .ok (o, w')) : ∃ sent, send d p w = .ok sent := by
  cases hs : send d p w with
  | ok sent => exact ⟨sent, rfl⟩
  | error e => rw [issue, hs] at h; cases h

/-- A loop that ends has classified its read. -/
theorem class_of_awaitResponse {prm : HostParameters} {n : Nat} {r : List Byte} {w w' : World} {o : ExchangeOutcome}
    (h : awaitResponse prm n r w = .ok (o, w')) : ∃ c v, classifyWithBlock r w = .ok (c, v) := by
  cases hc : classifyWithBlock r w with
  | ok cv => exact ⟨cv.1, cv.2, rfl⟩
  | error e => rw [awaitResponse, hc] at h; cases h

section
variable {prm : HostParameters} {n : Nat} {r : List Byte} {w v : World}

/-- A read classed ACK or NAK ends the loop with the outcome of its class (R126, R129). -/
theorem awaitResponse_decided {c : ResponseClass} (h : classifyWithBlock r w = .ok (c, v)) (hc : c ≠ .indet) :
    awaitResponse prm n r w = .ok (if c = .ack then .acknowledged r else .rejected r, v) := by
  rw [awaitResponse, h]
  cases c with
  | indet => exact absurd rfl hc
  | ack => rfl
  | nak => rfl

/-- An indeterminate read with no retry left is a time-out (R126). -/
theorem awaitResponse_timedOut (h : classifyWithBlock r w = .ok (.indet, v)) :
    awaitResponse prm 0 r w = .ok (.timedOut, v) := by
  rw [awaitResponse, h]

/-- An indeterminate read with a retry left goes on to the next turn, the poll interval before its read (R126). -/
theorem awaitResponse_retry (h : classifyWithBlock r w = .ok (.indet, v)) :
    awaitResponse prm (n + 1) r w = readAndAwait prm n prm.pollInterval v := by
  rw [awaitResponse, h]; rfl

/-- A loop that ends either makes no further read and no further wait, or goes on to a next turn. -/
theorem awaitResponse_cases {w' : World} {o : ExchangeOutcome} (h : awaitResponse prm n r w = .ok (o, w')) :
    w'.transport = w.transport ∨
    ∃ m v, n = m + 1 ∧ v.transport = w.transport ∧ readAndAwait prm m prm.pollInterval v = .ok (o, w') := by
  obtain ⟨c, v, hc⟩ := class_of_awaitResponse h
  have hv := transport_eq_of_classifyWithBlock hc
  by_cases hi : c = .indet
  · subst hi
    cases n with
    | zero =>
      cases (awaitResponse_timedOut hc).symm.trans h
      exact .inl hv
    | succ m => exact .inr ⟨m, v, rfl, hv, (awaitResponse_retry hc).symm.trans h⟩
  · cases (awaitResponse_decided hc hi).symm.trans h
    exact .inl hv

end

/-- A turn of the loop that ends has waited and read once, and either was the last or was followed by another (R126). -/
theorem readAndAwait_cases {prm : HostParameters} {n ms : Nat} {w w' : World} {o : ExchangeOutcome}
    (h : readAndAwait prm n ms w = .ok (o, w')) :
    ∃ v, v.transport.readsMade = w.transport.readsMade + 1 ∧ v.transport.waits = w.transport.waits ++ [ms] ∧
      (w'.transport = v.transport ∨ ∃ m, n = m + 1 ∧ readAndAwait prm m prm.pollInterval v = .ok (o, w')) := by
  unfold readAndAwait at h
  split at h
  next => cases h
  next r t hread =>
    obtain ⟨errors, rfl⟩ := eq_of_readOrEmpty hread
    rcases awaitResponse_cases h with hlast | ⟨m, v, hn, hv, hnext⟩
    · exact ⟨_, rfl, rfl, .inl hlast⟩
    · exact ⟨v, by rw [hv]; rfl, by rw [hv]; rfl, .inr ⟨m, hn, hnext⟩⟩

/-- A turn of the loop with `n` retries left makes at most `n + 1` reads, and waits at most its own time and `n` poll
intervals (R126, R136). -/
theorem readAndAwait_bounded {prm : HostParameters} {o : ExchangeOutcome} {w' : World} (n ms : Nat) (w : World)
    (h : readAndAwait prm n ms w = .ok (o, w')) :
    w'.transport.readsMade ≤ w.transport.readsMade + n + 1 ∧
    w'.transport.waits.sum ≤ w.transport.waits.sum + ms + n * prm.pollInterval := by
  induction n generalizing ms w with
  | zero =>
    obtain ⟨v, hreads, hwaits, hlast | ⟨m, hm, -⟩⟩ := readAndAwait_cases h
    · rw [hlast, hreads, hwaits, List.sum_append, List.sum_singleton]; omega
    · omega
  | succ n ih =>
    obtain ⟨v, hreads, hwaits, hlast | ⟨m, hm, hnext⟩⟩ := readAndAwait_cases h
    · rw [hlast, hreads, hwaits, List.sum_append, List.sum_singleton]; omega
    · obtain rfl := Nat.succ.inj hm
      obtain ⟨hreads', hwaits'⟩ := ih prm.pollInterval v hnext
      rw [hreads] at hreads'
      rw [hwaits, List.sum_append, List.sum_singleton] at hwaits'
      rw [Nat.succ_mul]
      omega

/-- Settles O60: `send` neither reads nor waits, and the read loop is bounded by its retries. -/
theorem exchangeIsBounded : Obligations.ExchangeIsBounded := by
  intro prm d p w o w' h
  obtain ⟨sent, hsend⟩ := send_of_issue h
  obtain ⟨hreads, hwaits⟩ := frame_of_send hsend
  rw [issue_of_send hsend] at h
  simpa only [hreads, hwaits] using readAndAwait_bounded _ _ sent h

end Sys2Proof.Machine.Exchange
end

section
/-! PROOFS. The outcome of an exchange by what its reads give (spec/49_host_environment.md R126 to R129). -/

namespace Sys2Proof.Machine.Exchange

/-- A read result the loop goes on after: an exception, or bytes within `max_length` that begin with neither code (R126,
R127). -/
def ReadResult.Indeterminate (max : Nat) (r : ReadResult) : Prop :=
  r = .exception ∨ ∃ s, r = .bytes s ∧ s.length ≤ max ∧ classifyRead s = .indet

/-- A read of the loop within its `max_length` gives the script's next bytes (R121, R126). -/
theorem readOrEmpty_bytes {t : Transport} {max : Nat} {s : List Byte} {rest : List ReadResult}
    (h : t.reads = .bytes s :: rest) (hl : s.length ≤ max) :
    readOrEmpty max t = .ok (s, { t with reads := rest, readsMade := t.readsMade + 1 }) := by
  rw [readOrEmpty, transportRead_bytes h hl]

/-- A read whose script is at its end, or goes on with an indeterminate result, gives the loop bytes that classify as
`INDET` (R126, R127). -/
theorem readOrEmpty_indeterminate {max : Nat} {t : Transport} (h : ∀ r ∈ t.reads.head?, r.Indeterminate max) :
    ∃ s t', classifyRead s = .indet ∧ readOrEmpty max t = .ok (s, t') := by
  cases hr : t.reads with
  | nil => exact ⟨[], _, rfl, by rw [readOrEmpty, transportRead_nil max hr]⟩
  | cons a rest =>
    rcases h a (by simp [hr]) with rfl | ⟨s, rfl, hl, hs⟩
    · exact ⟨[], _, rfl, by rw [readOrEmpty, transportRead_exception max hr]⟩
    · exact ⟨s, _, hs, readOrEmpty_bytes hr hl⟩

/-- A turn of the loop whose read is indeterminate is a time-out with no retry left, and goes on with one (R126). -/
theorem readAndAwait_indeterminate (prm : HostParameters) (ms : Nat) {w : World} (hs : w.block.inputs = [])
    (h : ∀ r ∈ w.transport.reads.head?, r.Indeterminate prm.readMax) :
    ∃ v errors, v.block.inputs = [] ∧
      v.transport =
        { w.transport with
          reads := w.transport.reads.tail
          readsMade := w.transport.readsMade + 1
          readErrors := errors
          waits := w.transport.waits ++ [ms] } ∧
      readAndAwait prm 0 ms w = .ok (.timedOut, v) ∧
      ∀ n, readAndAwait prm (n + 1) ms w = readAndAwait prm n prm.pollInterval v := by
  obtain ⟨r, t, hr, hread⟩ := readOrEmpty_indeterminate (t := pause ms w.transport) h
  obtain ⟨errors, ht⟩ := eq_of_readOrEmpty hread
  obtain ⟨block, hclass, hblock, -⟩ := hostReadsTheClass r (World.mk w.block t) hs
  rw [hr] at hclass
  exact ⟨World.mk block t, errors, hblock, ht, (readAndAwait_of_read 0 hread).trans (awaitResponse_timedOut hclass),
    fun n => (readAndAwait_of_read (n + 1) hread).trans (awaitResponse_retry hclass)⟩

/-- Over indeterminate reads alone a turn of the loop with `n` retries left times out after `n + 1` reads (R126). -/
theorem readAndAwait_timesOut (prm : HostParameters) (n ms : Nat) {w : World} (hs : w.block.inputs = [])
    (h : ∀ r ∈ w.transport.reads, r.Indeterminate prm.readMax) :
    ∃ w', readAndAwait prm n ms w = .ok (.timedOut, w') ∧
      w'.transport.readsMade = w.transport.readsMade + n + 1 ∧
      w'.transport.written = w.transport.written ∧
      w'.transport.waits = w.transport.waits ++ ms :: List.replicate n prm.pollInterval := by
  induction n generalizing ms w with
  | zero =>
    obtain ⟨v, errors, -, hv, hend, -⟩ :=
      readAndAwait_indeterminate prm ms hs fun r hr => h r (List.mem_of_mem_head? hr)
    exact ⟨v, hend, by rw [hv], by rw [hv], by rw [hv]; rfl⟩
  | succ n ih =>
    obtain ⟨v, errors, hblock, hv, -, hnext⟩ :=
      readAndAwait_indeterminate prm ms hs fun r hr => h r (List.mem_of_mem_head? hr)
    have hrest : ∀ r ∈ v.transport.reads, r.Indeterminate prm.readMax := by
      rw [hv]
      exact fun r hr => h r (List.mem_of_mem_tail hr)
    obtain ⟨w', hend, hreads, hwritten, hwaits⟩ := ih prm.pollInterval hblock hrest
    rw [hv] at hreads hwritten hwaits
    refine ⟨w', (hnext n).trans hend, ?_, hwritten, ?_⟩
    · rw [hreads]; dsimp only; omega
    · rw [hwaits, List.append_assoc, List.replicate_succ]; rfl

/-- After at most `n` indeterminate reads, a read that is ACK or NAK ends a turn of the loop with `n` retries left
(R126, R129). -/
theorem readAndAwait_decides (prm : HostParameters) (n ms : Nat) {w : World} {before after : List ReadResult}
    {s : List Byte} (hs : w.block.inputs = []) (hreads : w.transport.reads = before ++ .bytes s :: after)
    (hn : before.length ≤ n) (hbefore : ∀ r ∈ before, r.Indeterminate prm.readMax) (hl : s.length ≤ prm.readMax)
    (hclass : classifyRead s ≠ .indet) :
    ∃ w', readAndAwait prm n ms w = .ok (if classifyRead s = .ack then .acknowledged s else .rejected s, w') ∧
      w'.transport.readsMade = w.transport.readsMade + before.length + 1 ∧ w'.transport.reads = after := by
  induction before generalizing n ms w with
  | nil =>
    have hread := readOrEmpty_bytes (t := pause ms w.transport) hreads hl
    obtain ⟨block, hc, -⟩ := hostReadsTheClass s (World.mk w.block { w.transport with
      reads := after, readsMade := w.transport.readsMade + 1, waits := w.transport.waits ++ [ms] }) hs
    exact ⟨_, (readAndAwait_of_read n hread).trans (awaitResponse_decided hc hclass), rfl, rfl⟩
  | cons b before ih =>
    obtain ⟨m, rfl⟩ : ∃ m, n = m + 1 := Nat.exists_eq_add_one.mpr (Nat.zero_lt_of_lt hn)
    rw [List.forall_mem_cons] at hbefore
    obtain ⟨v, errors, hblock, hv, -, hnext⟩ := readAndAwait_indeterminate prm ms hs (by
      rw [hreads]
      rintro r ⟨⟩
      exact hbefore.1)
    have hrest : v.transport.reads = before ++ .bytes s :: after := by rw [hv, hreads]; rfl
    obtain ⟨w', hend, hmade, hafter⟩ := ih m prm.pollInterval hblock hrest (Nat.le_of_succ_le_succ hn) hbefore.2
    refine ⟨w', (hnext m).trans hend, ?_, hafter⟩
    rw [hmade, hv, List.length_cons]; dsimp only; omega

/-- Settles O57: `send` writes the frame, and the read loop times out. -/
theorem indeterminateReadsTimeOut : Obligations.IndeterminateReadsTimeOut := by
  intro prm d p w hs hidle htakes hreads
  obtain ⟨sent, hsend, hsent, hblock, -⟩ := sendWritesTheFrameOnce.1 d p w hs hidle htakes
  rw [issue_of_send hsend]
  have hloop := readAndAwait_timesOut prm prm.maxRetries prm.initialSettle hblock (by rw [hsent]; exact hreads)
  rwa [hsent] at hloop

/-- Settles O58: `send` leaves the script of reads, and the read loop ends with the deciding read. -/
theorem decidingReadEndsTheExchange : Obligations.DecidingReadEndsTheExchange := by
  intro prm d p w before s after hs hidle htakes hreads hn hbefore hl hclass
  obtain ⟨sent, hsend, hsent, hblock, -⟩ := sendWritesTheFrameOnce.1 d p w hs hidle htakes
  rw [issue_of_send hsend]
  have hloop := readAndAwait_decides prm prm.maxRetries prm.initialSettle hblock (by rw [hsent]; exact hreads) hn
    hbefore hl hclass
  rwa [hsent] at hloop

end Sys2Proof.Machine.Exchange
end

section
/-! PROOFS. The zoom query (spec/49_host_environment.md R130, R131). -/

namespace Sys2Proof.Machine.Exchange

section
variable {prm : HostParameters} {d : Byte} {w w' : World} {r : List Byte}

/-- A NAK is `ProtocolRejected`, with no further read (R131). -/
theorem getZoomPosition_rejected (h : issue prm d zoomPayload w = .ok (.rejected r, w')) :
    getZoomPosition prm d w = .ok (.error .protocolRejected, w') := by
  rw [getZoomPosition, h]

/-- A time-out is `ProtocolTimeout`, with no further read (R131). -/
theorem getZoomPosition_timedOut (h : issue prm d zoomPayload w = .ok (.timedOut, w')) :
    getZoomPosition prm d w = .ok (.error .protocolTimeout, w') := by
  rw [getZoomPosition, h]

section
variable (h : issue prm d zoomPayload w = .ok (.acknowledged r, w'))
include h

/-- After an ACK the bytes of one more read are decoded (R131). -/
theorem getZoomPosition_status {s : List Byte} {t : Transport}
    (hread : transportRead prm.readMax w'.transport = .ok (.bytes s, t)) :
    getZoomPosition prm d w = .ok (decodeStatus s, World.mk w'.block t) := by
  simp only [getZoomPosition, h, hread]

/-- An exception on the status read stops the host model by name (R131; log 10). -/
theorem getZoomPosition_exception {t : Transport}
    (hread : transportRead prm.readMax w'.transport = .ok (.exception, t)) :
    getZoomPosition prm d w = .error .statusReadFailed := by
  simp only [getZoomPosition, h, hread]

/-- A status read the host model says nothing of stops it for the same reason (log 10). -/
theorem getZoomPosition_error {e : Unspecified} (hread : transportRead prm.readMax w'.transport = .error e) :
    getZoomPosition prm d w = .error e := by
  simp only [getZoomPosition, h, hread]

end

end

/-- Settles O59: one lemma per outcome of `issue`, and after an ACK one per answer to the status read. -/
theorem zoomQueryOutcomes : Obligations.ZoomQueryOutcomes := by
  intro prm d w o w' h
  refine ⟨?rejected, ?timedOut, ?status, ?scriptEnd, ?exception, ?tooLong⟩
  case rejected =>
    rintro r rfl
    exact getZoomPosition_rejected h
  case timedOut =>
    rintro rfl
    exact getZoomPosition_timedOut h
  case status =>
    rintro r s rest rfl hreads hl
    exact getZoomPosition_status h (transportRead_bytes hreads hl)
  case scriptEnd =>
    rintro r rfl hreads
    exact getZoomPosition_status h (transportRead_nil prm.readMax hreads)
  case exception =>
    rintro r rest rfl hreads
    exact getZoomPosition_exception h (transportRead_exception prm.readMax hreads)
  case tooLong =>
    rintro r s rest rfl hreads hl
    exact getZoomPosition_error h (transportRead_tooLong hreads hl)

end Sys2Proof.Machine.Exchange
end

section
/-! PROOFS. The two faults: their codes, what raises them, fault entry, and the sticky bits over a run
(spec/60_exceptions.md R150 to R155). -/

namespace Sys2Proof.Machine

/-- The cause code of `OpFault` is the `STAT` mask of `E_OP` (R150, R18). -/
theorem stat_setSticky_opFault (s : State) : stat (s.setSticky .opFault) = stat s ||| 0x01 := by
  have mask : (0x01 : Byte) = 0#7 ++ 1#1 := by decide
  have bit : BitVec.ofBool s.eOp ||| 1#1 = BitVec.ofBool true := by cases s.eOp <;> rfl
  rw [mask, stat, stat, BitVec.or_append, BitVec.or_zero, bit]
  rfl

/-- The cause code of `SeqFault` is the `STAT` mask of `E_SEQ` (R150, R18). -/
theorem stat_setSticky_seqFault (s : State) : stat (s.setSticky .seqFault) = stat s ||| 0x02 := by
  have mask : (0x02 : Byte) = 0#6 ++ 1#1 ++ 0#1 := by decide
  have bit : BitVec.ofBool s.eSeq ||| 1#1 = BitVec.ofBool true := by cases s.eSeq <;> rfl
  rw [mask, stat, stat, BitVec.or_append, BitVec.or_append, BitVec.or_zero, BitVec.or_zero, bit]
  rfl

/-- Settles O26: a fault's response and its mask. `STAT` does not look at the response history, so that raising a fault
shows in it as setting the sticky bit. -/
theorem faultCodesAndWords : Obligations.FaultCodesAndWords := by
  refine ⟨rfl, rfl, rfl, rfl, fun s f => ?_⟩
  cases f with
  | opFault => exact ⟨rfl, stat_setSticky_opFault s⟩
  | seqFault => exact ⟨rfl, stat_setSticky_seqFault s⟩

/-- The fault `f` is the one of the operation `i` in the phase `p`: a reserved code, or one of the five pairs (R151, R152). -/
def Raises (f : BlockFault) (i : Instr) (p : Phase) : Prop :=
  match f with
  | .opFault => i ∈ reservedInstrs
  | .seqFault => WrongPhase i p

/-- An operation raises at most one fault (R154). -/
theorem Raises.unique {f g : BlockFault} {i : Instr} {p : Phase} (hf : Raises f i p) (hg : Raises g i p) : f = g := by
  cases f <;> cases g
  · rfl
  · exact absurd hg (not_wrongPhase_of_reserved hf)
  · exact absurd hf (not_wrongPhase_of_reserved hg)
  · rfl

/-- The operation `i` took `s` to `t` with no fault: it raises none in that phase, both sticky bits stay, and its response
has no fault bit. -/
structure Accepted (i : Instr) (s t : State) : Prop where
  raisesNone : ∀ f, ¬ Raises f i s.fph
  eOp : t.eOp = s.eOp
  eSeq : t.eSeq = s.eSeq
  response : ∃ d, t.rsp = s.rsp ++ [Response.mk false d]

/-- An operation raises its fault or is accepted (R151 to R153). -/
theorem Effect.raised_or_accepted {i : Instr} {s t : State} (e : Effect i s t) :
    (∃ f, Raises f i s.fph ∧ t = s.raise f) ∨ Accepted i s t := by
  cases e with
  | opFault h => exact .inl ⟨.opFault, h, rfl⟩
  | seqFault h => exact .inl ⟨.seqFault, h, rfl⟩
  | xclr h | xabs _ h | fstart _ h | fpush _ h | fend h =>
    refine .inr ⟨?_, rfl, rfl, _, rfl⟩
    rintro (_ | _) <;> simp [Raises, reservedInstrs, WrongPhase, h]
  | nop | xrd | crd | srd | carm | cbyteFirst | cbyteLater =>
    refine .inr ⟨?_, rfl, rfl, _, rfl⟩
    rintro (_ | _) <;> simp [Raises, reservedInstrs, WrongPhase]

/-- The response of fault entry (R153). -/
@[simp] theorem State.raise_rsp (f : BlockFault) (s : State) : (s.raise f).rsp = s.rsp ++ [Response.mk true f.code] := by
  cases f <;> rfl

/-- Fault entry leaves a fault recorded (R153). -/
@[simp] theorem State.raise_faultRecorded (f : BlockFault) (s : State) : (s.raise f).faultRecorded = true := by
  cases f
  · rfl
  · exact Bool.or_true _

/-- A response with the fault bit and the code `code` is that of fault entry (R153). -/
theorem Effect.raised_of_rsp_eq {i : Instr} {s t : State} {code : Byte} (e : Effect i s t)
    (hrsp : t.rsp = s.rsp ++ [Response.mk true code]) : ∃ f, Raises f i s.fph ∧ t = s.raise f ∧ code = f.code := by
  rcases e.raised_or_accepted with ⟨f, hf, rfl⟩ | ⟨-, -, -, d, hd⟩
  · rw [State.raise_rsp, List.append_cancel_left_eq] at hrsp
    cases hrsp
    exact ⟨f, hf, rfl, rfl⟩
  · rw [hd, List.append_cancel_left_eq] at hrsp
    cases hrsp

/-- The two cause codes differ (R150). -/
theorem BlockFault.code_injective : Function.Injective BlockFault.code := by
  intro f g
  cases f <;> cases g <;> decide

/-- An operation responds with a fault's code exactly when it raises that fault (R151 to R153). -/
theorem Effect.rsp_eq_iff_raises {i : Instr} {s t : State} (e : Effect i s t) (f : BlockFault) :
    t.rsp = s.rsp ++ [Response.mk true f.code] ↔ Raises f i s.fph := by
  constructor
  · intro hrsp
    obtain ⟨g, hg, -, hcode⟩ := e.raised_of_rsp_eq hrsp
    rwa [BlockFault.code_injective hcode]
  · intro hf
    rcases e.raised_or_accepted with ⟨g, hg, rfl⟩ | ⟨raisesNone, -⟩
    · rw [State.raise_rsp, hf.unique hg]
    · exact absurd hf (raisesNone f)

/-- Settles O27: `SeqFault` has the code `0x02`, and what raises it are the five pairs. -/
theorem seqFaultOnExactlyFivePairs : Obligations.SeqFaultOnExactlyFivePairs := fun _ _ _ h =>
  (effect_of_exec h).rsp_eq_iff_raises .seqFault

/-- The operation a word decodes to is reserved exactly when the word's code is `0xB` or above (R56, R152). -/
theorem decode_mem_reservedInstrs_iff (w : CommandWord) : decode w ∈ reservedInstrs ↔ 0xB ≤ (opField w).toNat := by
  rw [mem_reservedInstrs_iff, decode, opcode_decodeFields]

/-- Settles O28: `OpFault` has the code `0x01`, and what raises it are the reserved codes. -/
theorem opFaultOnExactlyReservedCodes : Obligations.OpFaultOnExactlyReservedCodes := fun w _ _ h =>
  ((effect_of_exec h).rsp_eq_iff_raises .opFault).trans (decode_mem_reservedInstrs_iff w)

/-- Settles O29: a response with the fault bit comes from fault entry alone. -/
theorem faultEntryChangesNothingElse : Obligations.FaultEntryChangesNothingElse := by
  intro i s t code h hrsp
  obtain ⟨f, -, rfl, rfl⟩ := (effect_of_exec h).raised_of_rsp_eq hrsp
  cases f with
  | opFault => exact .inl ⟨rfl, s.raise_opFault⟩
  | seqFault => exact .inr ⟨rfl, s.raise_seqFault⟩

/-- One operation appends one response, and leaves no fault recorded exactly when none was and its response has no fault
bit (R153, R155). -/
theorem Effect.faultRecorded_iff {i : Instr} {s t : State} (e : Effect i s t) :
    ∃ r, t.rsp = s.rsp ++ [r] ∧ (t.faultRecorded = false ↔ s.faultRecorded = false ∧ r.fault = false) := by
  rcases e.raised_or_accepted with ⟨f, -, rfl⟩ | ⟨-, heOp, heSeq, d, hd⟩
  · exact ⟨_, s.raise_rsp f, by simp⟩
  · exact ⟨_, hd, by simp [State.faultRecorded, heOp, heSeq]⟩

/-- Operations append one response each, and leave no fault recorded exactly when none was and no response has the fault
bit (R155). -/
theorem run_presented_faultRecorded_iff (ops : List Instr) (s : State) :
    ∃ (t : State) (answers : List Response),
      (∀ rest, Machine.run ops.length { s with inputs := presented ops ++ rest } = .next { t with inputs := rest }) ∧
      t.rsp = s.rsp ++ answers ∧ answers.length = ops.length ∧
      (t.faultRecorded = false ↔ s.faultRecorded = false ∧ ∀ r ∈ answers, r.fault = false) := by
  induction ops generalizing s with
  | nil => exact ⟨s, [], fun _ => rfl, s.rsp.append_nil.symm, rfl, by simp⟩
  | cons i ops ih =>
    obtain ⟨u, hu, e⟩ := exec_effect i s
    obtain ⟨r, hr, first⟩ := e.faultRecorded_iff
    obtain ⟨t, answers, goesOn, hrsp, hlen, later⟩ := ih u
    refine ⟨t, r :: answers, ?run, ?rsp, congrArg Nat.succ hlen, ?recorded⟩
    case run => exact fun rest => (run_presented_cons i ops.length ops rest hu).trans (goesOn rest)
    case rsp => rw [hrsp, hr, List.append_assoc, List.singleton_append]
    case recorded => rw [later, first, List.forall_mem_cons, and_assoc]

/-- Settles O31: with both bits clear at the start, what is recorded at the end is told by the responses alone. -/
theorem stickyBitsTellOfEveryFault : Obligations.StickyBitsTellOfEveryFault := by
  intro ops s heOp heSeq
  obtain ⟨t, answers, goesOn, hrsp, hlen, recorded⟩ := run_presented_faultRecorded_iff ops s
  have clear : s.faultRecorded = false := by rw [State.faultRecorded, heOp, heSeq, Bool.or_false]
  have whole := goesOn []
  rw [List.append_nil] at whole
  exact ⟨{ t with inputs := [] }, answers, whole, hrsp, hlen, recorded.trans (and_iff_right clear)⟩

end Sys2Proof.Machine
end

section
/-! PROOFS. Reset in mid-run, and a window left without `CARM` (spec/70_reset_and_hazards.md R170, R171, R177). -/

namespace Sys2Proof.Machine

/-- Settles O11: the input taken is the reset event, and its whole effect is `State.resetEvent`. -/
theorem resetEventLoadsEveryRegister : Obligations.ResetEventLoadsEveryRegister := by
  intro s rest hin
  calc step s
      = .next (State.resetEvent { s with inputs := rest }) := by simp only [step, State.takeInput_cons hin]
    _ = _ := rfl

/-- The state after `n` more operations that only respond `0x000`. -/
def State.acknowledged (s : State) (n : Nat) : State :=
  { s with rsp := s.rsp ++ List.replicate n (Response.mk false 0x00) }

/-- No operations, no responses. -/
theorem State.acknowledged_zero (s : State) : s.acknowledged 0 = s := by
  simp [State.acknowledged]

/-- The responses begin with the first one. -/
theorem State.acknowledged_succ (s : State) (n : Nat) :
    s.acknowledged (n + 1) = (s.respond false 0x00).acknowledged n := by
  simp [State.acknowledged, State.respond, List.replicate_succ]

/-- A `CBYTE` of each byte of `r` in a window that has a byte: each only responds (R98); then the run goes on. -/
theorem run_presented_cbyte_later {s : State} (r : List Byte) (n : Nat) (ops : List Instr) (rest : List Input)
    (h : s.seen = true) :
    Machine.run (r.length + n) { s with inputs := presented (r.map .cbyte ++ ops) ++ rest } =
      Machine.run n { s.acknowledged r.length with inputs := presented ops ++ rest } := by
  induction r generalizing s with
  | nil => rw [List.length_nil, State.acknowledged_zero, Nat.zero_add]; rfl
  | cons b r ih =>
    rw [List.length_cons, State.acknowledged_succ, Nat.add_right_comm]
    have one := run_presented_cons (.cbyte b) (r.length + n) (r.map .cbyte ++ ops) rest (execCbyte_later b h)
    exact one.trans (ih (s := s.respond false 0x00) h)

/-- Settles O52: the bytes leave the window as it was, and `CRD` responds the class it finds. -/
theorem staleWindowKeepsItsClass : Obligations.StaleWindowKeepsItsClass := by
  intro s r hseen
  have bytes := run_presented_cbyte_later r 1 [.crd] [] hseen
  have read := run_presented_cons .crd 0 [] [] (execCrd_eq (s.acknowledged r.length))
  have whole := bytes.trans read
  rw [List.append_nil] at whole
  exact ⟨_, whole, rfl, List.getLast?_concat⟩

end Sys2Proof.Machine
end
